-- ==== Sys2Proof/Word.lean ====
section
/-! DEFINITION. The words PKT1394 handles: the unsigned values of a stated width (R12, R95) and the
index types of its two register files (R19, R21). All integers of the spec are unsigned. -/

namespace Sys2Proof

/-- One byte of a byte string (R13). -/
abbrev Byte := BitVec 8

/-- A quadlet, 32 bits (R12, R16). -/
abbrev Quadlet := BitVec 32

/-- A target address, `ADDR_W` = 48 bits (R45). -/
abbrev Addr := BitVec 48

/-- A transaction label, `TL_W` = 6 bits (R27). -/
abbrev Label := BitVec 6

/-- The node number inside a bus id, `NODE_W` = 6 bits; 63 is the broadcast node (R60). -/
abbrev NodeNum := BitVec 6

/-- A board id: the index 0 to 15 of a board slot (R17). -/
abbrev BoardId := Fin 16

/-- A node id: an integer in `[0, MAX_NODES)` (R21). -/
abbrev NodeId := Fin 63

/-- R29: the abstract type of a receive timeout.  No rule computes with a value of it or compares two of
them.  DESIGN CHOICE (log entry 4): it is carried as 64 uninterpreted bits. -/
structure Duration where
  bits : BitVec 64
deriving DecidableEq, Repr, Inhabited

end Sys2Proof
end

