-- ==== Sys2Proof/Machine/Bytes.lean ====
section
/-! DEFINITION. Byte order and bit fields (R12, R13, R47): every multi-byte value is big-endian, and a field
`v[hi:lo]` is read as an unsigned integer.  The decoder, the encoder and the codec all come here. -/

namespace Sys2Proof.Machine

/-- R13: `be16(v)`, most significant byte first. -/
def be16 (v : BitVec 16) : List Byte := [v.extractLsb' 8 8, v.extractLsb' 0 8]

/-- R13: `be32(v)`, the bytes `v[31:24], v[23:16], v[15:8], v[7:0]`. -/
def be32 (v : BitVec 32) : List Byte :=
  [v.extractLsb' 24 8, v.extractLsb' 16 8, v.extractLsb' 8 8, v.extractLsb' 0 8]

/-- R76: a 48-bit operand, big-endian. -/
def be48 (v : BitVec 48) : List Byte := be16 (v.extractLsb' 32 16) ++ be32 (v.extractLsb' 0 32)

/-- A 64-bit operand, big-endian (log entry 4). -/
def be64 (v : BitVec 64) : List Byte := be32 (v.extractLsb' 32 32) ++ be32 (v.extractLsb' 0 32)

/-- R13: `from_be16`. -/
def fromBe16 (b0 b1 : Byte) : BitVec 16 := b0 ++ b1

/-- R13: `from_be32`. -/
def fromBe32 (b0 b1 b2 b3 : Byte) : BitVec 32 := b0 ++ b1 ++ b2 ++ b3

/-- Inverse of `be48`. -/
def fromBe48 (b0 b1 b2 b3 b4 b5 : Byte) : BitVec 48 := fromBe16 b0 b1 ++ fromBe32 b2 b3 b4 b5

/-- Inverse of `be64`. -/
def fromBe64 (b0 b1 b2 b3 b4 b5 b6 b7 : Byte) : BitVec 64 := fromBe32 b0 b1 b2 b3 ++ fromBe32 b4 b5 b6 b7

/-- R13: `b[i]`; rules read only positions inside the string. -/
def byteAt (b : List Byte) (i : Nat) : Byte := b.getD i 0#8

/-- One bit of a byte string inverted: bit `j` of byte `i` (R81). -/
def flipBit (buf : List Byte) (i j : Nat) : List Byte := buf.set i (byteAt buf i ^^^ BitVec.twoPow 8 j)

/-- R13: `b[i..j)`, the bytes `i` to `j - 1`. -/
def slice (b : List Byte) (i j : Nat) : List Byte := (b.drop i).take (j - i)

/-- R13: `Q(f,k) = from_be32(f[4k..4k+4))`. -/
def quadAt (f : List Byte) (k : Nat) : Quadlet :=
  fromBe32 (byteAt f (4 * k)) (byteAt f (4 * k + 1)) (byteAt f (4 * k + 2)) (byteAt f (4 * k + 3))

/-- R76: a 1-bit operand in a byte: the byte's low bit. -/
def lowBit (b : Byte) : Bool := b.getLsbD 0

/-- R76: a 1-bit operand as a byte, the reserved bits 0. -/
def bitByte (x : Bool) : Byte := if x then 1#8 else 0#8

/-- R59: `destination_ID`, bits [31:16] of quadlet 0. -/
def q0Dest (q : Quadlet) : BitVec 16 := q.extractLsb' 16 16
/-- R59: `tl`, bits [15:10] of quadlet 0. -/
def q0Tl (q : Quadlet) : Label := q.extractLsb' 10 6
/-- R59: `rt`, bits [9:8] of quadlet 0. -/
def q0Rt (q : Quadlet) : BitVec 2 := q.extractLsb' 8 2
/-- R58, R59: `tcode`, bits [7:4] of quadlet 0. -/
def q0Tcode (q : Quadlet) : BitVec 4 := q.extractLsb' 4 4
/-- R59: `pri`, bits [3:0] of quadlet 0. -/
def q0Pri (q : Quadlet) : BitVec 4 := q.extractLsb' 0 4
/-- R61, R62: `source_ID`, bits [31:16] of quadlet 1. -/
def q1Src (q : Quadlet) : BitVec 16 := q.extractLsb' 16 16
/-- R60: the node a frame came from, `source_ID[5:0]`: bits [21:16] of quadlet 1. -/
def q1SrcNode (q : Quadlet) : NodeNum := q.extractLsb' 16 6
/-- R61: `offset_high`, bits [15:0] of quadlet 1. -/
def q1OffsetHigh (q : Quadlet) : BitVec 16 := q.extractLsb' 0 16
/-- R62: `rcode`, bits [15:12] of quadlet 1. -/
def q1Rcode (q : Quadlet) : BitVec 4 := q.extractLsb' 12 4
/-- R62: the reserved bits [11:0] of quadlet 1. -/
def q1Res (q : Quadlet) : BitVec 12 := q.extractLsb' 0 12
/-- R65, R66, R68: `data_length`, bits [31:16] of quadlet 3. -/
def q3Length (q : Quadlet) : BitVec 16 := q.extractLsb' 16 16
/-- R65, R66, R68: `extended_tcode`, bits [15:0] of quadlet 3. -/
def q3Ext (q : Quadlet) : BitVec 16 := q.extractLsb' 0 16

/-- R59: quadlet 0 from its fields. -/
def mkQ0 (dest : BitVec 16) (tl : Label) (rt : BitVec 2) (tcode pri : BitVec 4) : Quadlet :=
  dest ++ tl ++ rt ++ tcode ++ pri
/-- R61: quadlet 1 of a request. -/
def mkReqQ1 (src : BitVec 16) (addr : Addr) : Quadlet := src ++ addr.extractLsb' 32 16
/-- R62: quadlet 1 of a response. -/
def mkRespQ1 (src : BitVec 16) (rcode : BitVec 4) (res : BitVec 12) : Quadlet := src ++ rcode ++ res
/-- R65, R66, R68: quadlet 3 of a block kind. -/
def mkBlockQ3 (len ext : BitVec 16) : Quadlet := len ++ ext

end Sys2Proof.Machine
end

