-- ==== Sys2Proof/Config.lean ====
section
/-! DEFINITION. The implementation parameters of R9 and R10, the configuration functions of R11 and the values the
spec leaves open.  The default bodies of the functions stand with the codec, in `Machine/Codec.lean`. -/

namespace Sys2Proof.Config

/-- R9. -/
abbrev maxBoards : Nat := 16
/-- R9. -/
abbrev quadletBytes : Nat := 4
/-- R9. -/
abbrev qreadSize : Nat := 16
/-- R9. -/
abbrev qwriteSize : Nat := 20
/-- R9. -/
abbrev qrespSize : Nat := 20
/-- R9. -/
abbrev breadSize : Nat := 20
/-- R9. -/
abbrev brespHdrSize : Nat := 20
/-- R9. -/
abbrev bwriteHdrSize : Nat := 20
/-- R9. -/
abbrev crcSize : Nat := 4
/-- R9. -/
abbrev ctrlSize : Nat := 2
/-- R9. -/
abbrev extraSize : Nat := 8

/-- R10: node ids are integers in `[0, MAX_NODES)`. -/
abbrev maxNodes : Nat := 63
/-- R10: the node number that addresses all boards. -/
abbrev broadcastNode : NodeNum := 63#6
/-- R10: the upper 10 bits of every destination id PKT1394 builds. -/
abbrev localBusId : BitVec 10 := 0x3FF#10
/-- R10: the source id PKT1394 puts in every request. -/
abbrev srcId : BitVec 16 := 0xFFFF#16
/-- R10: the number a lookup answers for "no node". -/
abbrev noNode : Nat := maxNodes
/-- R10: the number a lookup answers for "no board". -/
abbrev noBoard : Nat := maxBoards
/-- R10: the largest block length a command accepts. -/
abbrev maxBlockBytes : Nat := 65532
/-- R10: whether a block-write request carries a trailing data CRC. -/
def bwriteDataCrc : Bool := false
/-- R10: the reset value of the tracked bus generation. -/
abbrev genReset : BitVec 8 := 0#8
/-- R10: the tick rate that scales the trailer's tick counts to seconds. -/
abbrev tickHz : Nat := 49152000
/-- R10: the target address of the broadcast read request. -/
abbrev bcReqAddr : Addr := 0x1800#48

/-- R10, R133: the two values of the parameter `BC_CAP_SOURCE`. -/
inductive CapSource where
  /-- Capability flags may change after an accepted response, as the environment draws. -/
  | envDraw
  /-- Capability flags change only at `ADD_BOARD`. -/
  | handleOnly
deriving DecidableEq, Repr

/-- R10: where a change of a capability flag comes from; `env_draw` by default. -/
def bcCapSource : CapSource := .envDraw

/-- R133: the set a capability draw is taken from. -/
inductive CapDraw where
  | keep
  | clear
  | set
deriving DecidableEq, Repr, Inhabited

/-- R133, U11: the environment's draw for board `b` at the `k`-th capability update.  A FREE VALUE
(log entry 2): no body, so nothing can be proved of what it draws. -/
opaque capDraw : Nat → BoardId → CapDraw

/-- R10, R29, D35: `RX_TIMEOUT_DEFAULT`, which the spec leaves OPEN ("default implementation-defined").  A
FREE VALUE (log entry 3). -/
opaque rxTimeoutDefault : Duration

/-- R11: the configuration functions, total functions of their arguments alone.  `Machine.functions` holds the
defaults, with which `exec` and `step` run.  A machine with others is a `Machine.Configuration`, which assumes of their
`crc32` what R81 asks (log entry 13). -/
structure Functions where
  /-- `crc32`. -/
  crc32 : List Byte → Quadlet
  /-- `bc_req_data`, of the sequence number and the in-use mask. -/
  bcReqData : BitVec 16 → BitVec 16 → Quadlet
  /-- `bc_seq_of`, of the payload. -/
  bcSeqOf : List Byte → Option (BitVec 16)

end Sys2Proof.Config
end

