-- ==== Sys2Proof/Syntax.lean ====
section
/-! DEFINITION. The instruction set of PKT1394 (R2): the six frame kinds of the codec, the twenty-four
host commands of R76 and the four transport events of R77.  One constructor of `Instr` per row of the
opcode table. -/

namespace Sys2Proof

/-- The header fields of a request frame (R59, R61), but for `tcode`, which the constructor fixes. -/
structure ReqHdr where
  dest : BitVec 16
  tl : Label
  rt : BitVec 2
  pri : BitVec 4
  src : BitVec 16
  addr : Addr
deriving DecidableEq, Repr

/-- The header fields of a response frame (R59, R62), but for `tcode`. -/
structure RespHdr where
  dest : BitVec 16
  tl : Label
  rt : BitVec 2
  pri : BitVec 4
  src : BitVec 16
  rcode : BitVec 4
  res1 : BitVec 12
  res2 : Quadlet
deriving DecidableEq, Repr

/-- R38: the transport's answer to `send`. -/
inductive SendOutcome where
  | ok
  | fail
deriving DecidableEq, Repr

/-- R39: the transport's answer to `receive`. -/
inductive RecvOutcome where
  | bytes (b : List Byte)
  | timeout
  | fail
deriving DecidableEq, Repr

/-- R41, R102: the revalidation answer: for each board id a node number, or `none`.  A number is 8 bits
wide here so that an answer out of range can be presented, and dropped. -/
abbrev RevalMap := Vector (Option Byte) 16

/-- The instruction set (R2, R58, R76, R77). -/
inductive Instr where
  /-- R64: quadlet-write-request. -/
  | qwrite (h : ReqHdr) (data crc : Quadlet)
  /-- R66: block-write-request; `tail` is what follows byte 19. -/
  | bwrite (h : ReqHdr) (len ext : BitVec 16) (crc : Quadlet) (tail : List Byte)
  /-- R63: quadlet-read-request. -/
  | qread (h : ReqHdr) (crc : Quadlet)
  /-- R65: block-read-request. -/
  | bread (h : ReqHdr) (len ext : BitVec 16) (crc : Quadlet)
  /-- R67: quadlet-response. -/
  | qresp (h : RespHdr) (data crc : Quadlet)
  /-- R68: block-response; `tail` is what follows byte 19. -/
  | bresp (h : RespHdr) (len ext : BitVec 16) (crc : Quadlet) (tail : List Byte)
  /-- R112. -/
  | init (r : Bool)
  /-- R113. -/
  | shutdown
  /-- R114. -/
  | setTimeout (d : Duration)
  /-- R115. -/
  | setNoForward (f : Bool)
  /-- R108. -/
  | setProtocol (m : BitVec 2)
  /-- R116. -/
  | getStatus
  /-- R117. -/
  | getTiming
  /-- R97. -/
  | addBoard (b : Byte) (fw : Quadlet) (cap : Bool)
  /-- R98. -/
  | removeBoard (b : Byte)
  /-- R99. -/
  | mapNode (b n : Byte)
  /-- R100. -/
  | unmapNode (b : Byte)
  /-- R103. -/
  | boardExists (b : Byte)
  /-- R104. -/
  | fwVersion (b : Byte)
  /-- R105. -/
  | nodeForBoard (b : Byte)
  /-- R106. -/
  | boardForNode (n : Byte)
  /-- R107. -/
  | bcCapableAll
  /-- R118. -/
  | readQuadlet (b : Byte) (a : Addr)
  /-- R119. -/
  | writeQuadlet (b : Byte) (a : Addr) (v : Quadlet)
  /-- R120. -/
  | readBlock (b : Byte) (a : Addr) (len : BitVec 32)
  /-- R121. -/
  | writeBlock (b : Byte) (a : Addr) (data : List Byte)
  /-- R122. -/
  | writeBcQuadlet (a : Addr) (v : Quadlet)
  /-- R123. -/
  | writeBcBlock (a : Addr) (data : List Byte)
  /-- R124. -/
  | writeBcReadRequest (seq : BitVec 16)
  /-- R126. -/
  | waitBcRead
  /-- R128. -/
  | sendDone (r : SendOutcome)
  /-- R129. -/
  | recvDone (r : RecvOutcome)
  /-- R102. -/
  | revalDone (m : RevalMap)
  /-- R134. -/
  | busReset (g : BitVec 32)
deriving DecidableEq, Repr

/-- The interfaces an instruction is presented on. -/
inductive Port where
  /-- R37: `CMD`, host to PKT1394. -/
  | cmd
  /-- R38 to R41: `TXR`, `RXR`, `RVR` and `BR`, transport to PKT1394; the code byte of R77 says which. -/
  | event
  /-- The packet codec (R2 (a)), to which a bare frame is presented.  DESIGN CHOICE, log entry 6. -/
  | codec
deriving DecidableEq, Repr

/-- The interface each instruction comes on. -/
def Instr.port : Instr → Port
  | .qwrite .. | .bwrite .. | .qread .. | .bread .. | .qresp .. | .bresp .. => .codec
  | .init .. | .shutdown | .setTimeout .. | .setNoForward .. | .setProtocol .. | .getStatus | .getTiming
  | .addBoard .. | .removeBoard .. | .mapNode .. | .unmapNode .. | .boardExists .. | .fwVersion ..
  | .nodeForBoard .. | .boardForNode .. | .bcCapableAll | .readQuadlet .. | .writeQuadlet .. | .readBlock ..
  | .writeBlock .. | .writeBcQuadlet .. | .writeBcBlock .. | .writeBcReadRequest .. | .waitBcRead => .cmd
  | .sendDone .. | .recvDone .. | .revalDone .. | .busReset .. => .event

/-- The mnemonic of R58, R76 and R77. -/
def Instr.mnemonic : Instr → String
  | .qwrite .. => "QWRITE"
  | .bwrite .. => "BWRITE"
  | .qread .. => "QREAD"
  | .bread .. => "BREAD"
  | .qresp .. => "QRESP"
  | .bresp .. => "BRESP"
  | .init .. => "INIT"
  | .shutdown => "SHUTDOWN"
  | .setTimeout .. => "SET_TIMEOUT"
  | .setNoForward .. => "SET_NO_FORWARD"
  | .setProtocol .. => "SET_PROTOCOL"
  | .getStatus => "GET_STATUS"
  | .getTiming => "GET_TIMING"
  | .addBoard .. => "ADD_BOARD"
  | .removeBoard .. => "REMOVE_BOARD"
  | .mapNode .. => "MAP_NODE"
  | .unmapNode .. => "UNMAP_NODE"
  | .boardExists .. => "BOARD_EXISTS"
  | .fwVersion .. => "FW_VERSION"
  | .nodeForBoard .. => "NODE_FOR_BOARD"
  | .boardForNode .. => "BOARD_FOR_NODE"
  | .bcCapableAll => "BC_CAPABLE_ALL"
  | .readQuadlet .. => "READ_QUADLET"
  | .writeQuadlet .. => "WRITE_QUADLET"
  | .readBlock .. => "READ_BLOCK"
  | .writeBlock .. => "WRITE_BLOCK"
  | .writeBcQuadlet .. => "WRITE_BC_QUADLET"
  | .writeBcBlock .. => "WRITE_BC_BLOCK"
  | .writeBcReadRequest .. => "WRITE_BC_READ_REQUEST"
  | .waitBcRead => "WAIT_BC_READ"
  | .sendDone .. => "SEND_DONE"
  | .recvDone .. => "RECV_DONE"
  | .revalDone .. => "REVAL_DONE"
  | .busReset .. => "BUS_RESET"

end Sys2Proof
end

