-- ==== Sys2Proof/WellFormed.lean ====
section
/-! DEFINITION. Which instruction terms have an encoding.  Widths are fixed by type; what is left to check
is the length of a byte string. -/

namespace Sys2Proof

/-- R76: a `data` operand follows a 16-bit byte count. -/
def wfData (data : List Byte) : Bool := data.length < 65536

/-- R66: what follows the 20 header bytes of a complete block-write request. -/
def wfWriteTail (len : BitVec 16) (tail : List Byte) : Bool :=
  tail.length == len.toNat + (if Config.bwriteDataCrc then Config.crcSize else 0)

/-- R68: what follows the 20 header bytes of a complete block-response. -/
def wfRespTail (len : BitVec 16) (tail : List Byte) : Bool :=
  tail.length == len.toNat + Config.crcSize

/-- A well-formed instruction: one that can be presented in the byte form of R76, or a complete frame of
R63 to R68. -/
def Instr.wf : Instr → Bool
  | .bwrite _ len _ _ tail => wfWriteTail len tail
  | .bresp _ len _ _ tail => wfRespTail len tail
  | .writeBlock _ _ data => wfData data
  | .writeBcBlock _ data => wfData data
  | .qwrite .. | .qread .. | .bread .. | .qresp .. => true
  | .init .. | .shutdown | .setTimeout .. | .setNoForward .. | .setProtocol .. | .getStatus | .getTiming
  | .addBoard .. | .removeBoard .. | .mapNode .. | .unmapNode .. | .boardExists .. | .fwVersion ..
  | .nodeForBoard .. | .boardForNode .. | .bcCapableAll | .readQuadlet .. | .writeQuadlet .. | .readBlock ..
  | .writeBcQuadlet .. | .writeBcReadRequest .. | .waitBcRead => true
  | .sendDone .. | .recvDone .. | .revalDone .. | .busReset .. => true

end Sys2Proof
end

