-- ==== Sys2Proof/Decode.lean ====
section
/-! DEFINITION. From the bytes of a message to an instruction, and back.  `decode` is total; what spells no
instruction is rejected by name (R75, U15).  Commands have the byte form of R76; the bytes of an event's
operand are the model's own form (log entry 5); a frame has the layout of R63 to R68. -/

namespace Sys2Proof

open Machine

/-- Why a message spells no instruction. -/
inductive DecodeError where
  /-- A message with no code byte. -/
  | empty
  /-- R75: a code byte outside the table of R76. -/
  | unknownCommand (code : Byte)
  /-- R75: a code byte outside the table of R77. -/
  | unknownEvent (code : Byte)
  /-- The operand bytes are fewer or more than the command or event takes. -/
  | badLength (code : Byte)
  /-- `RECV_DONE` with an outcome byte that is none of `bytes`, `timeout`, `fail`. -/
  | unknownOutcome (outcome : Byte)
  /-- R89: `TooShort`. -/
  | frameTooShort
  /-- R75: a transaction code that selects none of the six kinds. -/
  | unknownTcode (tcode : BitVec 4)
deriving DecidableEq, Repr

/-! ### Host commands (R76) -/

/-- A command without operands. -/
def takeNone (code : Byte) (ops : List Byte) (i : Instr) : Except DecodeError Instr :=
  match ops with
  | [] => .ok i
  | _ => .error (.badLength code)

/-- One operand byte. -/
def takeByte (code : Byte) (ops : List Byte) (k : Byte → Instr) : Except DecodeError Instr :=
  match ops with
  | [x] => .ok (k x)
  | _ => .error (.badLength code)

/-- A `data` operand: a 16-bit byte count, then that many bytes (R76). -/
def takeData (code : Byte) (ops : List Byte) (k : List Byte → Instr) : Except DecodeError Instr :=
  match ops with
  | n1 :: n0 :: rest =>
    if rest.length = (fromBe16 n1 n0).toNat then .ok (k rest) else .error (.badLength code)
  | _ => .error (.badLength code)

/-- Operands `b` (8 bits) and `a` (48 bits), then what `k` reads. -/
def takeBoardAddr (code : Byte) (ops : List Byte)
    (k : Byte → Addr → List Byte → Except DecodeError Instr) : Except DecodeError Instr :=
  match ops with
  | b :: a5 :: a4 :: a3 :: a2 :: a1 :: a0 :: rest => k b (fromBe48 a5 a4 a3 a2 a1 a0) rest
  | _ => .error (.badLength code)

/-- Operand `a` (48 bits), then what `k` reads. -/
def takeAddr (code : Byte) (ops : List Byte)
    (k : Addr → List Byte → Except DecodeError Instr) : Except DecodeError Instr :=
  match ops with
  | a5 :: a4 :: a3 :: a2 :: a1 :: a0 :: rest => k (fromBe48 a5 a4 a3 a2 a1 a0) rest
  | _ => .error (.badLength code)

/-- A 32-bit operand that ends the message. -/
def takeQuadlet (code : Byte) (ops : List Byte) (k : Quadlet → Instr) : Except DecodeError Instr :=
  match ops with
  | [v3, v2, v1, v0] => .ok (k (fromBe32 v3 v2 v1 v0))
  | _ => .error (.badLength code)

/-- The operands of `ADD_BOARD`. -/
def takeBoardHandle (code : Byte) (ops : List Byte) : Except DecodeError Instr :=
  match ops with
  | [b, f3, f2, f1, f0, cap] => .ok (.addBoard b (fromBe32 f3 f2 f1 f0) (lowBit cap))
  | _ => .error (.badLength code)

/-- The operand of `SET_TIMEOUT`, in the model's byte form (log entry 4). -/
def takeDuration (code : Byte) (ops : List Byte) : Except DecodeError Instr :=
  match ops with
  | [d7, d6, d5, d4, d3, d2, d1, d0] => .ok (.setTimeout ⟨fromBe64 d7 d6 d5 d4 d3 d2 d1 d0⟩)
  | _ => .error (.badLength code)

/-- Two operand bytes. -/
def takeTwo (code : Byte) (ops : List Byte) (k : Byte → Byte → Instr) : Except DecodeError Instr :=
  match ops with
  | [x, y] => .ok (k x y)
  | _ => .error (.badLength code)

/-- The command table of R76: the code byte, then the operands in order. -/
def decodeCommand (code : Byte) (ops : List Byte) : Except DecodeError Instr :=
  match code.toNat with
  | 0x01 => takeByte code ops fun r => .init (lowBit r)
  | 0x02 => takeNone code ops .shutdown
  | 0x03 => takeDuration code ops
  | 0x04 => takeByte code ops fun f => .setNoForward (lowBit f)
  | 0x05 => takeByte code ops fun m => .setProtocol (m.extractLsb' 0 2)
  | 0x06 => takeNone code ops .getStatus
  | 0x07 => takeNone code ops .getTiming
  | 0x10 => takeBoardHandle code ops
  | 0x11 => takeByte code ops .removeBoard
  | 0x12 => takeTwo code ops .mapNode
  | 0x13 => takeByte code ops .unmapNode
  | 0x18 => takeByte code ops .boardExists
  | 0x19 => takeByte code ops .fwVersion
  | 0x1A => takeByte code ops .nodeForBoard
  | 0x1B => takeByte code ops .boardForNode
  | 0x1C => takeNone code ops .bcCapableAll
  | 0x20 => takeBoardAddr code ops fun b a r => takeNone code r (.readQuadlet b a)
  | 0x21 => takeBoardAddr code ops fun b a r => takeQuadlet code r (.writeQuadlet b a)
  | 0x22 => takeBoardAddr code ops fun b a r => takeQuadlet code r (.readBlock b a)
  | 0x23 => takeBoardAddr code ops fun b a r => takeData code r (.writeBlock b a)
  | 0x28 => takeAddr code ops fun a r => takeQuadlet code r (.writeBcQuadlet a)
  | 0x29 => takeAddr code ops fun a r => takeData code r (.writeBcBlock a)
  | 0x2A => takeTwo code ops fun s1 s0 => .writeBcReadRequest (fromBe16 s1 s0)
  | 0x2B => takeNone code ops .waitBcRead
  | _ => .error (.unknownCommand code)

/-! ### Transport events (R77); the operand's byte form is the model's own (log entry 5) -/

/-- Sixteen pairs of bytes: presence (low bit), then the node number. -/
def readPairs : List Byte → List (Option Byte)
  | f :: n :: rest => (if lowBit f then some n else none) :: readPairs rest
  | _ => []

/-- The revalidation answer, one pair of bytes per board id. -/
def takeMap (code : Byte) (ops : List Byte) : Except DecodeError Instr :=
  if ops.length = 32 then
    if h : (readPairs ops).length = 16 then .ok (.revalDone ⟨⟨readPairs ops⟩, h⟩)
    else .error (.badLength code)
  else .error (.badLength code)

/-- The receive outcome: 0 `bytes`, the rest of the message being the bytes; 1 `timeout`; 2 `fail`. -/
def takeOutcome (code : Byte) (ops : List Byte) : Except DecodeError Instr :=
  match ops with
  | [] => .error (.badLength code)
  | r :: rest =>
    match r.toNat with
    | 0 => .ok (.recvDone (.bytes rest))
    | 1 => takeNone code rest (.recvDone .timeout)
    | 2 => takeNone code rest (.recvDone .fail)
    | _ => .error (.unknownOutcome r)

/-- The event table of R77. -/
def decodeEvent (code : Byte) (ops : List Byte) : Except DecodeError Instr :=
  match code.toNat with
  | 0x80 => takeByte code ops fun r => .sendDone (if lowBit r then .ok else .fail)
  | 0x81 => takeOutcome code ops
  | 0x82 => takeMap code ops
  | 0x83 => takeQuadlet code ops .busReset
  | _ => .error (.unknownEvent code)

/-! ### Frames (R58 to R68) -/

/-- R61: the header fields of a request frame. -/
def readReqHdr (f : List Byte) : ReqHdr where
  dest := q0Dest (quadAt f 0)
  tl := q0Tl (quadAt f 0)
  rt := q0Rt (quadAt f 0)
  pri := q0Pri (quadAt f 0)
  src := q1Src (quadAt f 1)
  addr := q1OffsetHigh (quadAt f 1) ++ quadAt f 2

/-- R62: the header fields of a response frame. -/
def readRespHdr (f : List Byte) : RespHdr where
  dest := q0Dest (quadAt f 0)
  tl := q0Tl (quadAt f 0)
  rt := q0Rt (quadAt f 0)
  pri := q0Pri (quadAt f 0)
  src := q1Src (quadAt f 1)
  rcode := q1Rcode (quadAt f 1)
  res1 := q1Res (quadAt f 1)
  res2 := quadAt f 2

/-- R58, R74, R89: the kind by the `tcode` of quadlet 0, and the fewest bytes its header takes.  No CRC is
checked; bytes beyond a quadlet kind's size are ignored. -/
def decodeFrame (f : List Byte) : Except DecodeError Instr :=
  let tcode := q0Tcode (quadAt f 0)
  if f.length < 4 then .error .frameTooShort
  else if f.length < (if tcode = 4#4 then Config.qreadSize else 20) then .error .frameTooShort
  else
    match tcode.toNat with
    | 0x0 => .ok (.qwrite (readReqHdr f) (quadAt f 3) (quadAt f 4))
    | 0x1 => .ok (.bwrite (readReqHdr f) (q3Length (quadAt f 3)) (q3Ext (quadAt f 3)) (quadAt f 4) (f.drop 20))
    | 0x4 => .ok (.qread (readReqHdr f) (quadAt f 3))
    | 0x5 => .ok (.bread (readReqHdr f) (q3Length (quadAt f 3)) (q3Ext (quadAt f 3)) (quadAt f 4))
    | 0x6 => .ok (.qresp (readRespHdr f) (quadAt f 3) (quadAt f 4))
    | 0x7 => .ok (.bresp (readRespHdr f) (q3Length (quadAt f 3)) (q3Ext (quadAt f 3)) (quadAt f 4) (f.drop 20))
    | _ => .error (.unknownTcode tcode)

/-- The decoder: the instruction a message on an interface spells. -/
def decode (p : Port) (bytes : List Byte) : Except DecodeError Instr :=
  match p, bytes with
  | .codec, f => decodeFrame f
  | .cmd, code :: ops => decodeCommand code ops
  | .event, code :: ops => decodeEvent code ops
  | .cmd, [] => .error .empty
  | .event, [] => .error .empty

/-! ### The encoder, from the same tables -/

/-- Quadlets 0 to 2 of a request frame (R59, R61). -/
def reqHead (tcode : BitVec 4) (h : ReqHdr) : List Byte :=
  be32 (mkQ0 h.dest h.tl h.rt tcode h.pri) ++ be32 (mkReqQ1 h.src h.addr) ++ be32 (h.addr.extractLsb' 0 32)

/-- Quadlets 0 to 2 of a response frame (R59, R62). -/
def respHead (tcode : BitVec 4) (h : RespHdr) : List Byte :=
  be32 (mkQ0 h.dest h.tl h.rt tcode h.pri) ++ be32 (mkRespQ1 h.src h.rcode h.res1) ++ be32 h.res2

/-- A `data` operand (R76). -/
def dataBytes (data : List Byte) : List Byte := be16 (BitVec.ofNat 16 data.length) ++ data

/-- One board's pair of bytes in a revalidation answer. -/
def pairBytes : Option Byte → List Byte
  | some n => [1#8, n]
  | none => [0#8, 0#8]

/-- The encoder: the bytes of an instruction, on the interface `i.port`. -/
def encode : Instr → List Byte
  | .qwrite h data crc => reqHead 0x0#4 h ++ be32 data ++ be32 crc
  | .bwrite h len ext crc tail => reqHead 0x1#4 h ++ be32 (mkBlockQ3 len ext) ++ be32 crc ++ tail
  | .qread h crc => reqHead 0x4#4 h ++ be32 crc
  | .bread h len ext crc => reqHead 0x5#4 h ++ be32 (mkBlockQ3 len ext) ++ be32 crc
  | .qresp h data crc => respHead 0x6#4 h ++ be32 data ++ be32 crc
  | .bresp h len ext crc tail => respHead 0x7#4 h ++ be32 (mkBlockQ3 len ext) ++ be32 crc ++ tail
  | .init r => [0x01#8, bitByte r]
  | .shutdown => [0x02#8]
  | .setTimeout d => 0x03#8 :: be64 d.bits
  | .setNoForward f => [0x04#8, bitByte f]
  | .setProtocol m => [0x05#8, m.setWidth 8]
  | .getStatus => [0x06#8]
  | .getTiming => [0x07#8]
  | .addBoard b fw cap => 0x10#8 :: b :: be32 fw ++ [bitByte cap]
  | .removeBoard b => [0x11#8, b]
  | .mapNode b n => [0x12#8, b, n]
  | .unmapNode b => [0x13#8, b]
  | .boardExists b => [0x18#8, b]
  | .fwVersion b => [0x19#8, b]
  | .nodeForBoard b => [0x1A#8, b]
  | .boardForNode n => [0x1B#8, n]
  | .bcCapableAll => [0x1C#8]
  | .readQuadlet b a => 0x20#8 :: b :: be48 a
  | .writeQuadlet b a v => 0x21#8 :: b :: be48 a ++ be32 v
  | .readBlock b a len => 0x22#8 :: b :: be48 a ++ be32 len
  | .writeBlock b a data => 0x23#8 :: b :: be48 a ++ dataBytes data
  | .writeBcQuadlet a v => 0x28#8 :: be48 a ++ be32 v
  | .writeBcBlock a data => 0x29#8 :: be48 a ++ dataBytes data
  | .writeBcReadRequest seq => 0x2A#8 :: be16 seq
  | .waitBcRead => [0x2B#8]
  | .sendDone .ok => [0x80#8, 1#8]
  | .sendDone .fail => [0x80#8, 0#8]
  | .recvDone (.bytes b) => 0x81#8 :: 0#8 :: b
  | .recvDone .timeout => [0x81#8, 1#8]
  | .recvDone .fail => [0x81#8, 2#8]
  | .revalDone m => 0x82#8 :: m.toList.flatMap pairBytes
  | .busReset g => 0x83#8 :: be32 g

/-! ### Words numbered as the opcode table numbers them -/

/-- How many operand bytes follow a code byte whose operand bits are all 0. -/
def zeroOperands (code : Byte) : Nat :=
  match code.toNat with
  | 0x01 | 0x04 | 0x05 | 0x11 | 0x13 | 0x18 | 0x19 | 0x1A | 0x1B => 1
  | 0x03 => 8
  | 0x10 => 6
  | 0x12 | 0x2A => 2
  | 0x20 => 7
  | 0x21 | 0x22 => 11
  | 0x23 => 9
  | 0x28 => 10
  | 0x29 => 8
  | 0x80 | 0x81 => 1
  | 0x82 => 32
  | 0x83 => 4
  | _ => 0

/-- Whether a one-word row of 8 bits is a code byte of R76 or R77 (else it can only be the low byte of a
frame's quadlet 0). -/
def isCode (code : Byte) : Bool :=
  match decodeCommand code (List.replicate (zeroOperands code) 0#8),
    decodeEvent code (List.replicate (zeroOperands code) 0#8) with
  | .error (.unknownCommand _), .error (.unknownEvent _) => false
  | _, _ => true

/-- The bytes of the frame whose quadlets are the 32-bit words of `w`, quadlet 0 in bits 31..0. -/
def frameOfWord (w : Nat) : List Byte :=
  let q (k : Nat) : Quadlet := BitVec.ofNat 32 (w >>> (32 * k))
  let size : Nat :=
    match (q0Tcode (q 0)).toNat with
    | 0x4 => 16
    | 0x1 => 20 + (q3Length (q 3)).toNat + (if Config.bwriteDataCrc then 4 else 0)
    | 0x7 => 20 + (q3Length (q 3)).toNat + 4
    | _ => 20
  (((List.range 5).flatMap fun k => be32 (q k)) ++ List.replicate (size - 20) 0#8).take size

/-- The interface and the bytes of the table word `w` of `nbits` bits: a row of 8 bits is a code byte with
its operand bytes 0; a longer one is a frame, by its quadlets. -/
def tableMessage (nbits w : Nat) : Port × List Byte :=
  let code : Byte := BitVec.ofNat 8 w
  if nbits ≤ 8 && isCode code then
    (if code.getLsbD 7 then .event else .cmd, code :: List.replicate (zeroOperands code) 0#8)
  else (.codec, frameOfWord w)

/-- The instruction the decoder reads from a word numbered as the opcode table numbers it. -/
def decodeTableWord (nbits w : Nat) : Option Instr :=
  match decode (tableMessage nbits w).1 (tableMessage nbits w).2 with
  | .ok i => some i
  | .error _ => none

end Sys2Proof
end

