-- ==== Sys2Proof/Machine/Codec.lean ====
section
/-! DEFINITION. The packet codec (R79 to R95): total, pure functions on byte strings.  No state is read or
written here.  A function that computes or checks a CRC takes the configuration functions of R11 as its last argument;
left out, they are the defaults. -/

namespace Sys2Proof.Machine

/-! ### CRC -/

/-- R79: one turn of the inner loop, for the message bit `bit`. -/
def crcBit (reg : Quadlet) (bit : Bool) : Quadlet :=
  if reg.msb ^^ bit then (reg <<< 1) ^^^ 0x04C11DB7#32 else reg <<< 1

/-- R79: the eight bits of a byte, bit 7 first. -/
def crcByte (reg : Quadlet) (b : Byte) : Quadlet :=
  [7, 6, 5, 4, 3, 2, 1, 0].foldl (fun r i => crcBit r (b.getLsbD i)) reg

/-- R79: the default body of the configuration function `crc32`. -/
def crc32 (bs : List Byte) : Quadlet := bs.foldl crcByte 0xFFFFFFFF#32 ^^^ 0xFFFFFFFF#32

/-- R125: the default body of the configuration function `bc_req_data`. -/
def bcReqData (seq : BitVec 16) (mask : BitVec 16) : Quadlet := seq ++ mask

/-- R127: the default body of the configuration function `bc_seq_of`. -/
def bcSeqOf (p : List Byte) : Option (BitVec 16) :=
  if 4 ≤ p.length then some ((quadAt p 0).extractLsb' 16 16) else none

/-- R11: the configuration functions with their default bodies. -/
def functions : Config.Functions where
  crc32 := crc32
  bcReqData := bcReqData
  bcSeqOf := bcSeqOf

/-- R80: `compute_crc`. -/
def computeCrc (bs : List Byte) (c : Config.Functions := functions) : List Byte := be32 (c.crc32 bs)

/-- R81: `check_crc`, for a buffer that is supposed to end in its own CRC. -/
def checkCrc (buf : List Byte) (c : Config.Functions := functions) : Bool :=
  if buf.length < Config.crcSize then false
  else computeCrc (buf.take (buf.length - 4)) c == buf.drop (buf.length - 4)

/-- R81, R11, D7: the property of `crc32` the source asks for, "flipping any single bit in the header or CRC causes
`check_crc` to be false".  It is the NAMED ASSUMPTION a replaced `crc32` must keep; for the default it is a statement of
its own, `CrcChecksAndDetectsEverySingleBitFlip`.  The source's other property, that a buffer with its own CRC appended
checks, holds for every `crc32` (`checkCrc_withCrc`). -/
def DetectsFlips (c : Config.Functions) : Prop :=
  ∀ (m : List Byte) (i j : Nat), i < m.length + 4 → j < 8 → checkCrc (flipBit (m ++ computeCrc m c) i j) c = false

/-! ### Encoders -/

/-- R60: `dest_id(n)`. -/
def destId (n : NodeNum) : BitVec 16 := Config.localBusId ++ n

/-- R60: the node part of a bus id. -/
def nodeOfId (id : BitVec 16) : NodeNum := id.extractLsb' 0 6

/-- R60, R63 to R66: the header of a request PKT1394 builds. -/
def ownReqHdr (n : NodeNum) (a : Addr) (t : Label) : ReqHdr :=
  { dest := destId n, tl := t, rt := 0#2, pri := 0#4, src := Config.srcId, addr := a }

/-- R62, R87, R88: the header of a response the codec builds. -/
def ownRespHdr (dst : BitVec 16) (s : NodeNum) (t : Label) (rc : BitVec 4) : RespHdr :=
  { dest := dst, tl := t, rt := 0#2, pri := 0#4, src := destId s, rcode := rc, res1 := 0#12, res2 := 0#32 }

/-- R69: the header CRC is appended to the bytes it covers. -/
def withCrc (h : List Byte) (c : Config.Functions := functions) : List Byte := h ++ computeCrc h c

/-- R83: `enc_qread`. -/
def encQread (n : NodeNum) (a : Addr) (t : Label) (c : Config.Functions := functions) : List Byte :=
  withCrc (reqHead 0x4#4 (ownReqHdr n a t)) c

/-- R84: `enc_qwrite`. -/
def encQwrite (n : NodeNum) (a : Addr) (t : Label) (v : Quadlet)
    (c : Config.Functions := functions) : List Byte :=
  withCrc (reqHead 0x0#4 (ownReqHdr n a t) ++ be32 v) c

/-- R85: `enc_bread`. -/
def encBread (n : NodeNum) (a : Addr) (t : Label) (len : BitVec 16)
    (c : Config.Functions := functions) : List Byte :=
  withCrc (reqHead 0x5#4 (ownReqHdr n a t) ++ be32 (mkBlockQ3 len 0#16)) c

/-- R86: `enc_bwrite`, with the parameter `BWRITE_DATA_CRC` as an argument. -/
def encBwriteWith (dataCrc : Bool) (n : NodeNum) (a : Addr) (t : Label) (data : List Byte)
    (c : Config.Functions := functions) : List Byte :=
  withCrc (reqHead 0x1#4 (ownReqHdr n a t) ++ be32 (mkBlockQ3 (BitVec.ofNat 16 data.length) 0#16)) c ++ data
    ++ (if dataCrc then computeCrc data c else [])

/-- R86: `enc_bwrite`. -/
def encBwrite (n : NodeNum) (a : Addr) (t : Label) (data : List Byte)
    (c : Config.Functions := functions) : List Byte :=
  encBwriteWith Config.bwriteDataCrc n a t data c

/-- R87: `enc_qresp`. -/
def encQresp (dst : BitVec 16) (s : NodeNum) (t : Label) (v : Quadlet) (rc : BitVec 4)
    (c : Config.Functions := functions) : List Byte :=
  withCrc (respHead 0x6#4 (ownRespHdr dst s t rc) ++ be32 v) c

/-- R88: `enc_bresp`. -/
def encBresp (dst : BitVec 16) (s : NodeNum) (t : Label) (data : List Byte) (rc : BitVec 4)
    (c : Config.Functions := functions) : List Byte :=
  withCrc (respHead 0x7#4 (ownRespHdr dst s t rc) ++ be32 (mkBlockQ3 (BitVec.ofNat 16 data.length) 0#16)) c ++ data
    ++ computeCrc data c

/-! ### Decoder -/

/-- R58, R75: a frame's kind. -/
inductive FrameKind where
  | qwrite | bwrite | qread | bread | qresp | bresp
  | unknown (tcode : BitVec 4)
deriving DecidableEq, Repr

/-- R58: the kind a transaction code selects. -/
def FrameKind.ofTcode (t : BitVec 4) : FrameKind :=
  match t.toNat with
  | 0x0 => .qwrite
  | 0x1 => .bwrite
  | 0x4 => .qread
  | 0x5 => .bread
  | 0x6 => .qresp
  | 0x7 => .bresp
  | _ => .unknown t

/-- R74: the length of a frame, from its transaction code and its `data_length`. -/
def frameSize (kind : FrameKind) (dataLength : Nat) : Option Nat :=
  match kind with
  | .qread => some Config.qreadSize
  | .qwrite => some Config.qwriteSize
  | .bread => some Config.breadSize
  | .qresp => some Config.qrespSize
  | .bwrite => some (Config.bwriteHdrSize + dataLength + (if Config.bwriteDataCrc then Config.crcSize else 0))
  | .bresp => some (Config.brespHdrSize + dataLength + Config.crcSize)
  | .unknown _ => none

/-- R89: the record `decode_header` answers.  A field the kind does not have is `none`. -/
structure HeaderRecord where
  kind : FrameKind
  destinationId : BitVec 16
  tl : Label
  rt : BitVec 2
  tcode : BitVec 4
  pri : BitVec 4
  sourceId : BitVec 16
  sourceNode : NodeNum
  addr : Option Addr
  rcode : Option (BitVec 4)
  quadletData : Option Quadlet
  dataLength : Option (BitVec 16)
  extendedTcode : Option (BitVec 16)
  headerCrc : Option Quadlet
  payload : Option (List Byte)
deriving DecidableEq, Repr

/-- R89: the value, if the transaction code is one of those listed. -/
def fieldIf {α : Type} (t : BitVec 4) (codes : List (BitVec 4)) (v : α) : Option α :=
  if codes.contains t then some v else none

/-- R89: `decode_header`; `none` is `TooShort`.  For an unknown transaction code only the fields of quadlets 0
and 1 are given (log entry 8). -/
def decodeHeader (f : List Byte) : Option HeaderRecord :=
  let t := q0Tcode (quadAt f 0)
  let len := q3Length (quadAt f 3)
  if f.length < 4 then none
  else if f.length < (if t = 4#4 then 16 else 20) then none
  else some {
    kind := FrameKind.ofTcode t
    destinationId := q0Dest (quadAt f 0)
    tl := q0Tl (quadAt f 0)
    rt := q0Rt (quadAt f 0)
    tcode := t
    pri := q0Pri (quadAt f 0)
    sourceId := q1Src (quadAt f 1)
    sourceNode := q1SrcNode (quadAt f 1)
    addr := fieldIf t [0x0#4, 0x1#4, 0x4#4, 0x5#4] (q1OffsetHigh (quadAt f 1) ++ quadAt f 2 : BitVec 48)
    rcode := fieldIf t [0x6#4, 0x7#4] (q1Rcode (quadAt f 1))
    quadletData := fieldIf t [0x0#4, 0x6#4] (quadAt f 3)
    dataLength := fieldIf t [0x1#4, 0x5#4, 0x7#4] len
    extendedTcode := fieldIf t [0x1#4, 0x5#4, 0x7#4] (q3Ext (quadAt f 3))
    headerCrc := fieldIf t [0x0#4, 0x1#4, 0x4#4, 0x5#4, 0x6#4, 0x7#4]
      (if t = 4#4 then quadAt f 3 else quadAt f 4)
    payload :=
      if [0x1#4, 0x7#4].contains t && 20 + len.toNat ≤ f.length then some (slice f 20 (20 + len.toNat)) else none }

/-! ### Response validation -/

/-- R91: the verdicts of `validate_response`. -/
inductive Verdict where
  | valid
  | lengthMismatch
  | nodeMismatch
  | tcodeMismatch
  | labelMismatch
  | crcFailure
deriving DecidableEq, Repr

/-- R91: `validate_response`.  The checks run in the order of the rule and stop at the first that fails. -/
def validateResponse (f : List Byte) (expNode : NodeNum) (expTcode : BitVec 4) (expTl : Label) (expLen : Nat)
    (c : Config.Functions := functions) : Verdict :=
  let want := if expTcode = 0x6#4 then 20 else 20 + expLen + 4
  if f.length ≠ want then .lengthMismatch
  else if expTcode = 0x7#4 ∧ (q3Length (quadAt f 3)).toNat ≠ expLen then .lengthMismatch
  else if q1SrcNode (quadAt f 1) ≠ expNode then .nodeMismatch
  else if q0Tcode (quadAt f 0) ≠ expTcode then .tcodeMismatch
  else if q0Tl (quadAt f 0) ≠ expTl then .labelMismatch
  else if checkCrc (slice f 0 20) c = false then .crcFailure
  else if expTcode = 0x7#4 ∧ checkCrc (slice f 20 want) c = false then .crcFailure
  else .valid

/-- R131 step 2: the checks of an aggregated broadcast response; node and label are not examined. -/
def validateBroadcast (f : List Byte) (c : Config.Functions := functions) : Verdict :=
  let len := (q3Length (quadAt f 3)).toNat
  if f.length < 24 then .lengthMismatch
  else if f.length ≠ 20 + len + 4 ∨ len = 0 ∨ len % 4 ≠ 0 then .lengthMismatch
  else if q0Tcode (quadAt f 0) ≠ 0x7#4 then .tcodeMismatch
  else if checkCrc (slice f 0 20) c = false ∨ checkCrc (slice f 20 (20 + len + 4)) c = false then .crcFailure
  else .valid

/-! ### Ethernet framing -/

/-- R71, R92: `make_ctrl`. -/
def makeCtrl (nf : Bool) (g : BitVec 8) : List Byte := [bitByte nf, g]

/-- R92: `parse_ctrl`; bits [7:1] of byte 0 are ignored. -/
def parseCtrl (c : List Byte) : Bool × BitVec 8 := (lowBit (byteAt c 0), byteAt c 1)

/-- R92: `eth_wrap`. -/
def ethWrap (nf : Bool) (g : BitVec 8) (f : List Byte) : List Byte := makeCtrl nf g ++ f

/-- R93: `eth_split`; `none` is `TooShort`. -/
def ethSplit (rx : List Byte) : Option (List Byte × List Byte) :=
  if rx.length < Config.extraSize then none
  else some (rx.take (rx.length - 8), rx.drop (rx.length - 8))

/-- R94: the record of `decode_extra_trailer`; the two times are exact rationals, in seconds. -/
structure TrailerRecord where
  flags : BitVec 8
  gen : BitVec 8
  aux : BitVec 16
  recvTicks : BitVec 16
  totalTicks : BitVec 16
  recvTime : Rat
  totalTime : Rat
deriving DecidableEq, Repr

/-- R94, R31: a tick count in seconds. -/
def ticksToSeconds (t : BitVec 16) : Rat := (t.toNat : Rat) / (Config.tickHz : Rat)

/-- R72, R94: `decode_extra_trailer`, for an 8-byte trailer. -/
def decodeExtraTrailer (tr : List Byte) : TrailerRecord where
  flags := byteAt tr 0
  gen := byteAt tr 1
  aux := fromBe16 (byteAt tr 2) (byteAt tr 3)
  recvTicks := fromBe16 (byteAt tr 4) (byteAt tr 5)
  totalTicks := fromBe16 (byteAt tr 6) (byteAt tr 7)
  recvTime := ticksToSeconds (fromBe16 (byteAt tr 4) (byteAt tr 5))
  totalTime := ticksToSeconds (fromBe16 (byteAt tr 6) (byteAt tr 7))

/-! ### What the codec answers for a frame presented to it (log entry 6) -/

/-- The answer for a presented frame: `decode_header` of it (`none` is `TooShort`), `check_crc` of its header
region and of its data region (`none` where it has no such region whole), and the frame the kind's encoder
builds from its fields, CRC recomputed (`none` where a payload is not there whole). -/
structure CodecReport where
  header : Option HeaderRecord
  headerCrcOk : Option Bool
  dataCrcOk : Option Bool
  rebuilt : Option (List Byte)
deriving DecidableEq, Repr

/-- R81, R91: the verdict on a CRC-protected region of `f`, if `f` holds the region. -/
def regionOk (f : List Byte) (i j : Nat) (c : Config.Functions) : Option Bool :=
  if j ≤ f.length then some (checkCrc (slice f i j) c) else none

/-- The codec's answer for a frame of a quadlet kind or a block-read request. -/
def reportPlain (f : List Byte) (hdrSize : Nat) (rebuilt : List Byte) (c : Config.Functions) : CodecReport :=
  { header := decodeHeader f
    headerCrcOk := regionOk f 0 hdrSize c
    dataCrcOk := none
    rebuilt := some rebuilt }

/-- The codec's answer for a frame of a kind with a payload of `len` bytes, and a data CRC or none. -/
def reportBlock (f : List Byte) (len : Nat) (dataCrc : Bool) (rebuild : List Byte → List Byte)
    (c : Config.Functions) : CodecReport :=
  { header := decodeHeader f
    headerCrcOk := regionOk f 0 20 c
    dataCrcOk := if dataCrc then regionOk f 20 (20 + len + 4) c else none
    rebuilt := if 20 + len ≤ f.length then some (rebuild (slice f 20 (20 + len))) else none }

/-- R75, R89: the codec's answer for bytes that are a frame of none of the six kinds: `TooShort`, or the record
of kind `Unknown(tcode)`. -/
def reportOther (f : List Byte) : CodecReport :=
  { header := decodeHeader f, headerCrcOk := none, dataCrcOk := none, rebuilt := none }

end Sys2Proof.Machine
end

