-- ==== Sys2Proof/Machine/State.lean ====
section
/-! DEFINITION. The state of PKT1394 (R19 to R36), the values its interfaces carry (R15, R37 to R43), why a
step can stop, and reset (R44, R160). -/

namespace Sys2Proof.Machine

/-- R19: one slot of the board table. -/
structure Slot where
  /-- `exists`: a board is registered in the slot. -/
  present : Bool
  /-- `fw_version`. -/
  fwVersion : Quadlet
  /-- `bc_capable`. -/
  bcCapable : Bool
  /-- `node`; `none` is the sentinel `NO_NODE`. -/
  node : Option NodeId
deriving DecidableEq, Repr

/-- R23: `port_state`. -/
inductive PortState where
  | constructed
  | operational
  | faulted
  | closed
deriving DecidableEq, Repr

/-- R24: `mode`; the value 3 of the 2-bit register is never written. -/
inductive Mode where
  | seqRw
  | seqRBcW
  | bcQrw
deriving DecidableEq, Repr

/-- R33: `phase`. -/
inductive Phase where
  | idle
  | waitReval
  | waitSend
  | waitRecv
deriving DecidableEq, Repr

/-- R34: `op`. -/
inductive Op where
  | rq | wq | rb | wb | bwq | bwb | brr | wbr | nfb | bfn
deriving DecidableEq, Repr

/-- R34: a command held in flight: its `op` with the operands that op has. -/
inductive Pending where
  | rq (b : BoardId) (a : Addr)
  | wq (b : BoardId) (a : Addr) (v : Quadlet)
  | rb (b : BoardId) (a : Addr) (len : BitVec 32)
  | wb (b : BoardId) (a : Addr) (data : List Byte)
  | bwq (a : Addr) (v : Quadlet)
  | bwb (a : Addr) (data : List Byte)
  | brr (seq : BitVec 16)
  | wbr
  | nfb (b : BoardId)
  | bfn (n : NodeId)
deriving DecidableEq, Repr

/-- R34: the record `inflight`.  A field that the rule which made the record does not give is `none`. -/
structure Inflight where
  /-- `op`, `board`, `addr`, `value`, `data`, `length`, `seq`. -/
  cmd : Pending
  /-- `node`. -/
  node : Option NodeNum
  /-- `exp_tcode`. -/
  expTcode : Option (BitVec 4)
  /-- `exp_tl`. -/
  expTl : Option Label
  /-- `exp_len`. -/
  expLen : Option Nat
deriving DecidableEq, Repr

/-- R36, R149: the logged reasons. -/
inductive Reason where
  | lengthMismatch
  | nodeMismatch
  | tcodeMismatch
  | labelMismatch
  | crcFailure
  | genMismatch
  | seqMismatch
  | noNode
  | timeout
  | sendFailure
  | receiveFailure
deriving DecidableEq, Repr

/-- R36: one entry of `diag_log`. -/
structure LogEntry where
  reason : Reason
  op : Op
  board : Option BoardId
  tl : Option Label
deriving DecidableEq, Repr

/-- R116: what `GET_STATUS` reads out. -/
structure Status where
  portState : PortState
  mode : Mode
  busGen : BitVec 8
  staleMap : Bool
  inUseMask : BitVec 16
  numBoards : BitVec 32
  tl : Label
  bcSeq : BitVec 16
  noForward : Bool
deriving DecidableEq, Repr

/-- R117: what `GET_TIMING` reads out. -/
structure Timing where
  recvTicks : BitVec 16
  totalTicks : BitVec 16
  trailerFlags : BitVec 8
  trailerAux : BitVec 16
deriving DecidableEq, Repr

/-- R15: the value of `OkValue`. -/
inductive Value where
  /-- R104 to R106: a firmware version, a node number or a board number. -/
  | num (v : Nat)
  | status (v : Status)
  | timing (v : Timing)
deriving DecidableEq, Repr

/-- R15, R138: the results of host commands. -/
inductive Result where
  | ok
  | okBool (b : Bool)
  | okValue (v : Value)
  | okQuadlet (q : Quadlet)
  | okBytes (b : List Byte)
  /-- `Refused(ProtocolUnsupported)`, R148. -/
  | refusedProtocol
  | outOfRange
  | notFound
  | protocolUnsupported
  | invalidLength
  | frameValidationFailure
  | timeoutError
  | transportFailure
  | notOperational
  | busy
deriving DecidableEq, Repr

/-- What PKT1394 puts on its output interfaces. -/
inductive Output where
  /-- `RES` (R37). -/
  | result (r : Result)
  /-- `TX` (R38): `send(bytes)`. -/
  | send (bytes : List Byte)
  /-- `RXQ` (R39): `receive(max_wait)`. -/
  | receive (maxWait : Duration)
  /-- `RVQ` (R41): `revalidate()`. -/
  | revalidate
  /-- `DIAG` (R43). -/
  | diag (e : LogEntry)
  /-- The codec's answer for a frame presented to it (log entry 6). -/
  | codec (r : CodecReport)
deriving DecidableEq, Repr

/-- What the environment presents to PKT1394 (log entry 1). -/
inductive Presentation where
  /-- A whole message on an interface (R37 to R41). -/
  | message (port : Port) (bytes : List Byte)
  /-- R160: reset, an action of the platform outside the command set. -/
  | reset
deriving DecidableEq, Repr

/-- The state.  The last three fields are the model's own (log entries 1 and 2); all others are the spec's. -/
structure State where
  /-- R19: `slot[0]` to `slot[15]`. -/
  slots : Vector Slot 16
  /-- R21: `node2board[0]` to `node2board[62]`; `none` is the sentinel `NO_BOARD`. -/
  node2board : Vector (Option BoardId) 63
  /-- R20: `in_use_mask`. -/
  inUseMask : BitVec 16
  /-- R20: `num_boards`. -/
  numBoards : BitVec 32
  /-- R23: `port_state`. -/
  portState : PortState
  /-- R24: `mode`. -/
  mode : Mode
  /-- R25: `bus_gen`. -/
  busGen : BitVec 8
  /-- R26: `stale_map`. -/
  staleMap : Bool
  /-- R27: `tl`, the label the next request will use. -/
  tl : Label
  /-- R28: `bc_seq`. -/
  bcSeq : BitVec 16
  /-- R29: `rx_timeout`. -/
  rxTimeout : Duration
  /-- R30: `no_forward`. -/
  noForward : Bool
  /-- R31: `recv_ticks`. -/
  recvTicks : BitVec 16
  /-- R31: `total_ticks`. -/
  totalTicks : BitVec 16
  /-- R31: `trailer_flags`. -/
  trailerFlags : BitVec 8
  /-- R31: `trailer_aux`. -/
  trailerAux : BitVec 16
  /-- R33: `phase`. -/
  phase : Phase
  /-- R34: `inflight`. -/
  inflight : Option Inflight
  /-- R36: `diag_log`, oldest entry first. -/
  diagLog : List LogEntry
  /-- What has been put on the output interfaces, oldest first (R37 to R43). -/
  out : List Output
  /-- What the environment will present, in the order it presents it (R8, R151). -/
  input : List Presentation
  /-- How many capability updates have drawn (R133): the argument of the free value `Config.capDraw`. -/
  drawCount : Nat
deriving DecidableEq, Repr

/-- Why the machine stops. -/
inductive Fault where
  /-- Raised by `ADD_BOARD` with `num_boards` = 2^32 - 1, to which the spec gives no step (R97 (iv), U6: "stuck").
  Safe: the model stops. -/
  | countOverflow
  /-- Raised by `SEND_DONE`, `RECV_DONE` and `REVAL_DONE` in a state where `inflight` does not hold a command the
  phase can have (R22 I4 and the rules R101, R109, R110, R126 exclude it; no run reaches one).  Safe: the model
  stops. -/
  | inflightMismatch
deriving DecidableEq, Repr

/-- Why an instruction has no meaning. -/
inductive Refusal where
  /-- Raised by an arm of `exec` whose instruction has no meaning yet; no arm does. Safe. -/
  | notModelled (mnemonic : String)
  /-- Raised by `step` for a message on `CMD` or an event interface that spells no command or event (R75, U15:
  "a byte-level decoder refuses it by name").  Safe: the model stops. -/
  | undecodable (e : DecodeError)
deriving DecidableEq, Repr

/-- What a step or a meaning answers. -/
abbrev StepOutcome := Host.Outcome State Fault Refusal

/-- R44: an empty slot.  `fw_version` and `bc_capable` are unspecified there and cannot be read; 0 is a DESIGN
CHOICE (log entry 7). -/
def Slot.empty : Slot := { present := false, fwVersion := 0#32, bcCapable := false, node := none }

/-- R44, R160: the state after reset.  PKT1394 waits in `IDLE`; nothing has been presented. -/
def State.reset : State where
  slots := Vector.replicate 16 Slot.empty
  node2board := Vector.replicate 63 none
  inUseMask := 0#16
  numBoards := 0#32
  portState := .constructed
  mode := .seqRw
  busGen := Config.genReset
  staleMap := false
  tl := 0#6
  bcSeq := 0#16
  rxTimeout := Config.rxTimeoutDefault
  noForward := false
  recvTicks := 0#16
  totalTicks := 0#16
  trailerFlags := 0#8
  trailerAux := 0#16
  phase := .idle
  inflight := none
  diagLog := []
  out := []
  input := []
  drawCount := 0

end Sys2Proof.Machine
end

