-- ==== Sys2Proof/Machine/Ops.lean ====
section
/-! DEFINITION. The shared operations over the state: emitting, logging, ending a command (R14, R36, R137), the
register files (R19 to R21), label allocation (R111), handing a frame to the transport (R38) and asking for
one (R39), and the pieces of judging a response that write registers (R132). -/

namespace Sys2Proof.Machine

/-! ### Interfaces -/

/-- R14: `emit`: one message on an output interface. -/
def State.emit (s : State) (o : Output) : State := { s with out := s.out ++ [o] }

/-- R15, R137: `result <- r` of a command that is not in flight. -/
def State.result (s : State) (r : Result) : State := s.emit (.result r)

/-- R14, R36, R43: `log(reason, …)`: one entry at the end of the log, and on `DIAG`. -/
def State.logEntry (s : State) (e : LogEntry) : State :=
  { s with diagLog := s.diagLog ++ [e] }.emit (.diag e)

/-- `finish(r)` of `42_sequencer.md`, and R137: the ONE delivery of a result, an error kind included.  The command
ends, nothing is saved, and the sequencer is back in `IDLE`; the return is the host's next command. -/
def State.finish (s : State) (r : Result) : State :=
  { s with inflight := none, phase := .idle }.result r

/-! ### Codes of the named values (R23, R24, R33, R138, R149) -/

/-- R23: the number of a port state. -/
def PortState.code : PortState → BitVec 2
  | .constructed => 0
  | .operational => 1
  | .faulted => 2
  | .closed => 3

/-- R24: the number of a protocol mode. -/
def Mode.code : Mode → BitVec 2
  | .seqRw => 0
  | .seqRBcW => 1
  | .bcQrw => 2

/-- R33: the number of a phase. -/
def Phase.code : Phase → BitVec 2
  | .idle => 0
  | .waitReval => 1
  | .waitSend => 2
  | .waitRecv => 3

/-- R138: the code of a result kind. -/
def Result.code : Result → Byte
  | .ok => 0x00
  | .okBool _ => 0x01
  | .okValue _ => 0x02
  | .okQuadlet _ => 0x03
  | .okBytes _ => 0x04
  | .refusedProtocol => 0x10
  | .outOfRange => 0x20
  | .notFound => 0x21
  | .protocolUnsupported => 0x22
  | .invalidLength => 0x23
  | .frameValidationFailure => 0x24
  | .timeoutError => 0x25
  | .transportFailure => 0x26
  | .notOperational => 0x27
  | .busy => 0x28

/-- R149: the code of a logged reason. -/
def Reason.code : Reason → Nat
  | .lengthMismatch => 1
  | .nodeMismatch => 2
  | .tcodeMismatch => 3
  | .labelMismatch => 4
  | .crcFailure => 5
  | .genMismatch => 6
  | .seqMismatch => 7
  | .noNode => 8
  | .timeout => 9
  | .sendFailure => 10
  | .receiveFailure => 11

/-- R149, R130: the reason logged for a verdict of validation. -/
def Verdict.reason : Verdict → Option Reason
  | .valid => none
  | .lengthMismatch => some .lengthMismatch
  | .nodeMismatch => some .nodeMismatch
  | .tcodeMismatch => some .tcodeMismatch
  | .labelMismatch => some .labelMismatch
  | .crcFailure => some .crcFailure

/-! ### The board table and the node map -/

/-- R19: `slot[b]`. -/
def State.slot (s : State) (b : BoardId) : Slot := s.slots[b]

/-- R21: `node2board[n]`. -/
def State.boardAt (s : State) (n : NodeId) : Option BoardId := s.node2board[n]

/-- Write all of `slot[b]`. -/
def State.setSlot (s : State) (b : BoardId) (x : Slot) : State :=
  { s with slots := s.slots.set b.val x b.isLt }

/-- Write `slot[b].node`. -/
def State.setNode (s : State) (b : BoardId) (n : Option NodeId) : State :=
  s.setSlot b { s.slot b with node := n }

/-- Write `node2board[n]`. -/
def State.setBoardAt (s : State) (n : NodeId) (b : Option BoardId) : State :=
  { s with node2board := s.node2board.set n.val b n.isLt }

/-- R98 step 4, R99 step 5, R100 step 4: the node board `b` holds is freed in `node2board`. -/
def State.freeNodeOf (s : State) (b : BoardId) : State :=
  match (s.slot b).node with
  | some n => s.setBoardAt n none
  | none => s

/-- R98 step 4, R100 step 4: board `b` ends without a node, in both tables. -/
def State.unassign (s : State) (b : BoardId) : State := (s.freeNodeOf b).setNode b none

/-- R99 step 6: a node held by another board is taken from it. -/
def State.stealNode (s : State) (n : NodeId) (b : BoardId) : State :=
  match s.boardAt n with
  | some b0 => if b0 = b then s else s.setNode b0 none
  | none => s

/-- R99 step 7, R102 step 2: `slot[b].node <- n; node2board[n] <- b`. -/
def State.assign (s : State) (b : BoardId) (n : NodeId) : State := (s.setNode b (some n)).setBoardAt n (some b)

/-- R99 steps 5 to 7. -/
def State.mapNode (s : State) (b : BoardId) (n : NodeId) : State := ((s.freeNodeOf b).stealNode n b).assign b n

/-- R97 step 3: the board is registered, and the count goes up whether or not the slot was occupied. -/
def State.register (s : State) (b : BoardId) (fw : Quadlet) (cap : Bool) : State :=
  { s.setSlot b { s.slot b with present := true, fwVersion := fw, bcCapable := cap } with
    inUseMask := s.inUseMask ||| BitVec.twoPow 16 b.val
    numBoards := s.numBoards + 1#32 }

/-- R98 step 4: the slot is cleared. -/
def State.unregister (s : State) (b : BoardId) : State :=
  let s1 := s.unassign b
  { s1.setSlot b { s1.slot b with present := false } with
    inUseMask := s.inUseMask &&& ~~~ BitVec.twoPow 16 b.val
    numBoards := s.numBoards - 1#32 }

/-- R102 step 1: both maps all-sentinel. -/
def State.clearMap (s : State) : State :=
  { s with
    slots := ⟨⟨s.slots.toList.map fun x => { x with node := none }⟩, by simp⟩
    node2board := Vector.replicate 63 none }

/-- The number as a node id, if it is in `[0, MAX_NODES)`. -/
def nodeOf (n : Byte) : Option NodeId := if h : n.toNat < 63 then some ⟨n.toNat, h⟩ else none

/-- R102 step 2, for one board id. -/
def State.installOne (m : RevalMap) (s : State) (b : BoardId) : State :=
  match (s.slot b).present, m[b].bind nodeOf with
  | true, some n => if s.boardAt n = none then s.assign b n else s
  | _, _ => s

/-- R102 steps 1 and 2: the whole map is replaced, made injective in ascending order of board ids. -/
@[irreducible] def State.installMap (s : State) (m : RevalMap) : State :=
  (List.finRange 16).foldl (State.installOne m) s.clearMap

/-! ### Commands in flight -/

/-- R34: the `op` of a command. -/
def Pending.op : Pending → Op
  | .rq .. => .rq
  | .wq .. => .wq
  | .rb .. => .rb
  | .wb .. => .wb
  | .bwq .. => .bwq
  | .bwb .. => .bwb
  | .brr .. => .brr
  | .wbr => .wbr
  | .nfb .. => .nfb
  | .bfn .. => .bfn

/-- R34, R36: the board id operand; `none` for a broadcast command. -/
def Pending.board : Pending → Option BoardId
  | .rq b _ | .wq b _ _ | .rb b _ _ | .wb b _ _ | .nfb b => some b
  | .bwq .. | .bwb .. | .brr .. | .wbr | .bfn .. => none

/-- R118, R120, R126: the transaction code the response must carry; writes await no response. -/
def Pending.expTcode : Pending → Option (BitVec 4)
  | .rq .. => some 0x6#4
  | .rb .. | .wbr => some 0x7#4
  | .wq .. | .wb .. | .bwq .. | .bwb .. | .brr .. | .nfb .. | .bfn .. => none

/-- R118, R120: the payload length the response must carry. -/
def Pending.expLen : Pending → Option Nat
  | .rq .. => some 4
  | .rb _ _ len => some len.toNat
  | .wbr | .wq .. | .wb .. | .bwq .. | .bwb .. | .brr .. | .nfb .. | .bfn .. => none

/-- R101: the command and its operands, held while a revalidation query is out. -/
def Inflight.held (p : Pending) : Inflight :=
  { cmd := p, node := none, expTcode := none, expTl := none, expLen := none }

/-- R109 P8, R110 B5: the record of a request sent to node `n` with label `t`. -/
def Inflight.sent (p : Pending) (n : NodeNum) (t : Label) : Inflight :=
  { cmd := p, node := some n, expTcode := p.expTcode, expTl := some t, expLen := p.expLen }

/-- R126 B5: the record of `WAIT_BC_READ`. -/
def Inflight.awaiting : Inflight :=
  { cmd := .wbr, node := none, expTcode := some 0x7#4, expTl := none, expLen := none }

/-- R36: the entry logged for the command in flight. -/
def Inflight.entry (f : Inflight) (r : Reason) : LogEntry :=
  { reason := r, op := f.cmd.op, board := f.cmd.board, tl := f.expTl }

/-- R128 to R131: log the reason, then end the command with `r`. -/
def State.fail (s : State) (f : Inflight) (reason : Reason) (r : Result) : State :=
  (s.logEntry (f.entry reason)).finish r

/-! ### The transport -/

/-- R111: label allocation: the register after the request took its label `s.tl`. -/
def State.advanceLabel (s : State) : State := { s with tl := s.tl + 1#6 }

/-- R109 P8, R110 B5: the frame goes out behind the control word as `bus_gen` and `no_forward` are now. -/
def State.handOver (s : State) (f : Inflight) (frame : List Byte) : State :=
  { s with inflight := some f, phase := .waitSend }.emit (.send (ethWrap s.noForward s.busGen frame))

/-- R128, R126: `emit receive(rx_timeout)`. -/
def State.awaitReceive (s : State) : State := { s with phase := .waitRecv }.emit (.receive s.rxTimeout)

/-- R132: trailer acceptance. -/
def State.acceptTrailer (s : State) (tr : List Byte) : State :=
  let d := decodeExtraTrailer tr
  { s with recvTicks := d.recvTicks, totalTicks := d.totalTicks, trailerFlags := d.flags, trailerAux := d.aux }

/-- R31: the diagnostic `FPGA_RecvTime`, in seconds. -/
def State.fpgaRecvTime (s : State) : Rat := ticksToSeconds s.recvTicks

/-- R31: the diagnostic `FPGA_TotalTime`, in seconds. -/
def State.fpgaTotalTime (s : State) : Rat := ticksToSeconds s.totalTicks

/-! ### Presenting -/

/-- R160: reset by the platform.  Every register of the spec takes its reset value; what was put on the
interfaces, what the environment will present and the draw counter are not registers of PKT1394. -/
def State.platformReset (s : State) : State :=
  { State.reset with out := s.out, input := s.input, drawCount := s.drawCount }

/-- What becomes of a message that spells no instruction: on the codec `decode_header` answers all the same
(R75, R89); on the other interfaces it is refused by name (R75, U15). -/
def undecoded (p : Port) (bytes : List Byte) (e : DecodeError) (s : State) : StepOutcome :=
  match p with
  | .codec => .next (s.emit (.codec (reportOther bytes)))
  | .cmd | .event => .refused (.undecodable e)

/-- The message of a table word, put where `step` takes its next presentation. -/
def State.present (s : State) (m : Port × List Byte) : State :=
  { s with input := .message m.1 m.2 :: s.input }

end Sys2Proof.Machine
end

