-- ==== Sys2Proof/Machine/Operands.lean ====
section
/-! DEFINITION. The checks on operands, on the mode and on the port state, each as a step that ends the command
or lets it go on (R96, R109, R110, R150), and the translation of a board id (R52, R70). -/

namespace Sys2Proof.Machine

/-- End a command that is not in flight with `r`, nothing else changed. -/
def answer (s : State) (r : Result) : StepOutcome := .next (s.result r)

/-- R37, R147: a command presented while `phase ≠ IDLE` gets `Busy` and changes nothing. -/
def whenIdle (s : State) (k : StepOutcome) : StepOutcome :=
  if s.phase = .idle then k else answer s .busy

/-- The board id an operand names, if it is below `MAX_BOARDS`. -/
def boardOf (b : Byte) : Option BoardId := if h : b.toNat < 16 then some ⟨b.toNat, h⟩ else none

/-- R139: a board id operand out of range. -/
def withBoard (s : State) (b : Byte) (k : BoardId → StepOutcome) : StepOutcome :=
  match boardOf b with
  | some b => k b
  | none => answer s .outOfRange

/-- R139: a node operand out of range (`MAP_NODE`). -/
def withNode (s : State) (n : Byte) (k : NodeId → StepOutcome) : StepOutcome :=
  match nodeOf n with
  | some n => k n
  | none => answer s .outOfRange

/-- R140 (a): the slot is empty. -/
def whenRegistered (s : State) (b : BoardId) (k : StepOutcome) : StepOutcome :=
  if (s.slot b).present = true then k else answer s .notFound

/-- R48: the legal block lengths. -/
def legalLength (len : Nat) : Bool := 0 < len && len % 4 == 0 && len ≤ Config.maxBlockBytes

/-- R142: the block length check. -/
def whenLength (s : State) (len : Nat) (k : StepOutcome) : StepOutcome :=
  if legalLength len = true then k else answer s .invalidLength

/-- R146 (b), R96 (c): only `Closed` stops a command that does not touch the transport. -/
def unlessClosed (s : State) (k : StepOutcome) : StepOutcome :=
  if s.portState = .closed then answer s .notOperational else k

/-- R109 P4, R110 B3: the port state test of a command that touches the transport. -/
def whenOperational (s : State) (k : StepOutcome) : StepOutcome :=
  match s.portState with
  | .operational => k
  | .faulted => answer s .transportFailure
  | .constructed | .closed => answer s .notOperational

/-- R110: the modes that allow a broadcast write. -/
def Mode.allowsBcWrite : Mode → Bool
  | .seqRBcW | .bcQrw => true
  | .seqRw => false

/-- R110: the mode that allows the broadcast read pair. -/
def Mode.allowsBcRead : Mode → Bool
  | .bcQrw => true
  | .seqRw | .seqRBcW => false

/-- R141 (a): a broadcast command in a mode that does not allow it. -/
def whenAllowed (s : State) (allowed : Bool) (k : StepOutcome) : StepOutcome :=
  if allowed = true then k else answer s .protocolUnsupported

/-- R76, R108: the mode an operand names; 3 is not a mode. -/
def modeOf (m : BitVec 2) : Option Mode :=
  if m = 0#2 then some .seqRw
  else if m = 1#2 then some .seqRBcW
  else if m = 2#2 then some .bcQrw
  else none

/-- R70: a node id as the node number of a bus id. -/
def nodeNum (n : NodeId) : NodeNum := BitVec.ofNat 6 n.val

/-- R105: the number a lookup answers for a node: the node id, or the sentinel `NO_NODE`. -/
def nodeNumber : Option NodeId → Nat
  | some n => n.val
  | none => Config.noNode

/-- R106: the number a lookup answers for a board: the board id, or the sentinel `NO_BOARD`. -/
def boardNumber : Option BoardId → Nat
  | some b => b.val
  | none => Config.noBoard

/-- R109 P8, R110 B5, R70: the frame of a command, for node `n` and label `t`; the broadcast read request carries
the in-use mask. -/
def Pending.frame (p : Pending) (n : NodeNum) (t : Label) (mask : BitVec 16)
    (c : Config.Functions := functions) : List Byte :=
  match p with
  | .rq _ a => encQread n a t c
  | .wq _ a v | .bwq a v => encQwrite n a t v c
  | .rb _ a len => encBread n a t (len.setWidth 16) c
  | .wb _ a data | .bwb a data => encBwrite n a t data c
  | .brr seq => encQwrite n Config.bcReqAddr t (c.bcReqData seq mask) c
  | .wbr | .nfb _ | .bfn _ => []

/-- R109 P7 and P8, R110 B4 and B5: allocate the label, build the frame, hand it to the transport. -/
def State.sendRequest (s : State) (p : Pending) (n : NodeNum) (c : Config.Functions) : State :=
  s.advanceLabel.handOver (Inflight.sent p n s.tl) (p.frame n s.tl s.inUseMask c)

/-- R109 P6 to P8: a unicast command after its lookup. -/
def State.sendUnicast (s : State) (p : Pending) (b : BoardId) (c : Config.Functions) : State :=
  match (s.slot b).node with
  | none => (s.logEntry { reason := .noNode, op := p.op, board := some b, tl := some s.tl }).finish .notFound
  | some n => s.sendRequest p (nodeNum n) c

/-- R105 step 4. -/
def State.answerNodeFor (s : State) (b : BoardId) : State :=
  s.finish (.okValue (.num (nodeNumber (s.slot b).node)))

/-- R106 step 4. -/
def State.answerBoardFor (s : State) (n : NodeId) : State :=
  s.finish (.okValue (.num (boardNumber (s.boardAt n))))

/-- R101: `lookup`: ask the transport to revalidate if the map is stale and there is a transport to ask, else go
on at once with `k`. -/
def State.lookup (s : State) (p : Pending) (k : State → State) : State :=
  if s.staleMap = true ∧ s.portState = .operational then
    { s with staleMap := false, inflight := some (Inflight.held p), phase := .waitReval }.emit .revalidate
  else k s

/-- R109: the prologue of the four unicast commands, P0 to P2. -/
def unicastPrologue (s : State) (b : Byte) (k : BoardId → StepOutcome) : StepOutcome :=
  whenIdle s <| withBoard s b fun bid => whenRegistered s bid <| k bid

/-- R109: P4 to P8. -/
def unicastGo (s : State) (p : Pending) (b : BoardId) (c : Config.Functions) : StepOutcome :=
  whenOperational s <| .next (s.lookup p fun s => s.sendUnicast p b c)

/-- R110: B3 to B5. -/
def broadcastGo (s : State) (p : Pending) (c : Config.Functions) : StepOutcome :=
  whenOperational s <| .next (s.sendRequest p Config.broadcastNode c)

end Sys2Proof.Machine
end

