-- ==== Sys2Proof/Machine/Flags.lean ====
section
/-! DEFINITION. The one-bit flags (R32) that a rule computes: the broadcast-capable aggregate (R107), the
bus-reset action on `stale_map` (R134) and the capability update (R133). -/

namespace Sys2Proof.Machine

/-- R107: `bc_all`, the AND of `bc_capable` over every registered board; over no boards it is 1. -/
def State.bcAll (s : State) : Bool := s.slots.toList.all fun x => !x.present || x.bcCapable

/-- R134: the bus-reset action. -/
def State.busResetAction (s : State) (g : BitVec 8) : State := { s with busGen := g, staleMap := true }

/-- R133: a capability flag after a draw. -/
def drawn (c : Config.CapDraw) (old : Bool) : Bool :=
  match c with
  | .keep => old
  | .clear => false
  | .set => true

/-- R133: `slot[b].bc_capable` after a draw. -/
def State.drawCap (s : State) (c : Config.CapDraw) (b : BoardId) : State :=
  s.setSlot b { s.slot b with bcCapable := drawn c (s.slot b).bcCapable }

/-- R133: `slot[b].bc_capable` after a draw, for a registered board. -/
def State.drawCapIfRegistered (s : State) (c : Config.CapDraw) (b : BoardId) : State :=
  if (s.slot b).present = true then s.drawCap c b else s

/-- One capability update has drawn. -/
def State.countDraw (s : State) : State := { s with drawCount := s.drawCount + 1 }

/-- R133: the capability update after an accepted response from board `b`, for the parameter `BC_CAP_SOURCE` and
the environment's draw. -/
def State.capUpdateWith (s : State) (src : Config.CapSource) (draw : BoardId → Config.CapDraw) (b : BoardId) :
    State :=
  match src with
  | .envDraw => (s.drawCap (draw b) b).countDraw
  | .handleOnly => s

/-- R133: the capability update after an accepted broadcast response: every registered board, an independent
draw for each. -/
def State.capUpdateAllWith (s : State) (src : Config.CapSource) (draw : BoardId → Config.CapDraw) : State :=
  match src with
  | .envDraw => ((List.finRange 16).foldl (fun s b => s.drawCapIfRegistered (draw b) b) s).countDraw
  | .handleOnly => s

/-- R133: the capability update for the board of a unicast command. -/
def State.capUpdate (s : State) (b : BoardId) : State :=
  s.capUpdateWith Config.bcCapSource (Config.capDraw s.drawCount) b

/-- R133: the capability update for every registered board. -/
def State.capUpdateAll (s : State) : State :=
  s.capUpdateAllWith Config.bcCapSource (Config.capDraw s.drawCount)

end Sys2Proof.Machine
end

