-- ==== Sys2Proof/Machine/Broadcast.lean ====
section
/-! DEFINITION. The broadcast commands (R110, R122 to R124, R126).  They make no board lookup and never
revalidate. -/

namespace Sys2Proof.Machine

/-- R122: WRITE_BC_QUADLET. -/
def execWriteBcQuadletWith (c : Config.Functions) (a : Addr) (v : Quadlet) (s : State) : StepOutcome :=
  whenIdle s <| whenAllowed s s.mode.allowsBcWrite <| broadcastGo s (.bwq a v) c

/-- WRITE_BC_QUADLET, with the default functions of R11. -/
def execWriteBcQuadlet (a : Addr) (v : Quadlet) (s : State) : StepOutcome :=
  execWriteBcQuadletWith functions a v s

/-- R123: WRITE_BC_BLOCK. -/
def execWriteBcBlockWith (c : Config.Functions) (a : Addr) (data : List Byte) (s : State) : StepOutcome :=
  whenIdle s <| whenAllowed s s.mode.allowsBcWrite <| whenLength s data.length <| broadcastGo s (.bwb a data) c

/-- WRITE_BC_BLOCK, with the default functions of R11. -/
def execWriteBcBlock (a : Addr) (data : List Byte) (s : State) : StepOutcome :=
  execWriteBcBlockWith functions a data s

/-- R124: WRITE_BC_READ_REQUEST; `bc_seq` is written when the label is allocated. -/
def execWriteBcReadRequestWith (c : Config.Functions) (seq : BitVec 16) (s : State) : StepOutcome :=
  whenIdle s <| whenAllowed s s.mode.allowsBcRead <| whenOperational s <|
    .next ({ s with bcSeq := seq }.sendRequest (.brr seq) Config.broadcastNode c)

/-- WRITE_BC_READ_REQUEST, with the default functions of R11. -/
def execWriteBcReadRequest (seq : BitVec 16) (s : State) : StepOutcome :=
  execWriteBcReadRequestWith functions seq s

/-- R126: WAIT_BC_READ. -/
def execWaitBcRead (s : State) : StepOutcome :=
  whenIdle s <| whenAllowed s s.mode.allowsBcRead <| whenOperational s <|
    .next ({ s with inflight := some Inflight.awaiting }.awaitReceive)

end Sys2Proof.Machine
end

