-- ==== Sys2Proof/Machine/Events.lean ====
section
/-! DEFINITION. The transport events (R102, R128 to R135) and the judging of responses (R130, R131).  An event
outside the phase that awaits it is ignored (R135). -/

namespace Sys2Proof.Machine

/-! ### Judging a response -/

/-- R130, R131 step 4: the board's generation differs from `bus_gen`. -/
def State.resync (s : State) (f : Inflight) (g : BitVec 8) : State :=
  (s.busResetAction g).fail f .genMismatch .frameValidationFailure

/-- R130: judge a unicast response against `inflight`; `deliver` is step 6. -/
def State.judgeUnicast (s : State) (f : Inflight) (b : BoardId) (expNode : NodeNum) (expTcode : BitVec 4)
    (expTl : Label) (expLen : Nat) (deliver : List Byte → Result) (rx : List Byte)
    (c : Config.Functions) : State :=
  match ethSplit rx with
  | none => s.fail f .lengthMismatch .frameValidationFailure
  | some (fr, tr) =>
    match (validateResponse fr expNode expTcode expTl expLen c).reason with
    | some reason => s.fail f reason .frameValidationFailure
    | none =>
      let s := s.acceptTrailer tr
      if byteAt tr 1 ≠ s.busGen then s.resync f (byteAt tr 1)
      else (s.capUpdate b).finish (deliver fr)

/-- R131: judge the aggregated broadcast response. -/
def State.judgeBroadcast (s : State) (f : Inflight) (rx : List Byte) (c : Config.Functions) : State :=
  match ethSplit rx with
  | none => s.fail f .lengthMismatch .frameValidationFailure
  | some (fr, tr) =>
    match (validateBroadcast fr c).reason with
    | some reason => s.fail f reason .frameValidationFailure
    | none =>
      let s := s.acceptTrailer tr
      let payload := slice fr 20 (20 + (q3Length (quadAt fr 3)).toNat)
      if byteAt tr 1 ≠ s.busGen then s.resync f (byteAt tr 1)
      else if c.bcSeqOf payload ≠ some s.bcSeq then s.fail f .seqMismatch .frameValidationFailure
      else s.capUpdateAll.finish (.okBytes payload)

/-- R129, R130: which judgement a received byte string gets, by the command in flight. -/
def State.judge (s : State) (f : Inflight) (rx : List Byte) (c : Config.Functions) : StepOutcome :=
  match f.cmd, f.node, f.expTcode, f.expTl, f.expLen with
  | .rq b _, some n, some code, some t, some l =>
    .next (s.judgeUnicast f b n code t l (fun fr => .okQuadlet (quadAt fr 3)) rx c)
  | .rb b _ _, some n, some code, some t, some l =>
    .next (s.judgeUnicast f b n code t l (fun fr => .okBytes (slice fr 20 (20 + l))) rx c)
  | .wbr, _, _, _, _ => .next (s.judgeBroadcast f rx c)
  | _, _, _, _, _ => .fault .inflightMismatch

/-! ### The events -/

/-- The command in flight, in the phase that awaits the event; in any other phase the event is ignored (R135). -/
def inPhase (s : State) (p : Phase) (k : Inflight → StepOutcome) : StepOutcome :=
  if s.phase = p then
    match s.inflight with
    | some f => k f
    | none => .fault .inflightMismatch
  else .next s

/-- R128: the sequencer after a successful `send`. -/
def State.sent (s : State) (f : Inflight) : StepOutcome :=
  match f.cmd with
  | .wq .. | .wb .. | .bwq .. | .bwb .. | .brr .. => .next (s.finish .ok)
  | .rq .. | .rb .. => .next s.awaitReceive
  | .wbr | .nfb .. | .bfn .. => .fault .inflightMismatch

/-- R128: SEND_DONE. -/
def execSendDone (r : SendOutcome) (s : State) : StepOutcome :=
  inPhase s .waitSend fun f =>
    match r with
    | .fail => .next ({ s with portState := .faulted }.fail f .sendFailure .transportFailure)
    | .ok => s.sent f

/-- R129: RECV_DONE. -/
def execRecvDoneWith (c : Config.Functions) (r : RecvOutcome) (s : State) : StepOutcome :=
  inPhase s .waitRecv fun f =>
    match r with
    | .timeout => .next (s.fail f .timeout .timeoutError)
    | .fail => .next ({ s with portState := .faulted }.fail f .receiveFailure .transportFailure)
    | .bytes rx => s.judge f rx c

/-- RECV_DONE, with the default functions of R11. -/
def execRecvDone (r : RecvOutcome) (s : State) : StepOutcome :=
  execRecvDoneWith functions r s

/-- R102 step 3: the command held in flight resumes at the step after its lookup. -/
def State.resume (s : State) (p : Pending) (c : Config.Functions) : StepOutcome :=
  match p with
  | .nfb b => .next (s.answerNodeFor b)
  | .bfn n => .next (s.answerBoardFor n)
  | .rq b _ | .wq b _ _ | .rb b _ _ | .wb b _ _ => .next (s.sendUnicast p b c)
  | .bwq .. | .bwb .. | .brr .. | .wbr => .fault .inflightMismatch

/-- R102: REVAL_DONE. -/
def execRevalDoneWith (c : Config.Functions) (m : RevalMap) (s : State) : StepOutcome :=
  inPhase s .waitReval fun f =>
    if s.staleMap = true then .next ({ s.installMap m with staleMap := false }.emit .revalidate)
    else (s.installMap m).resume f.cmd c

/-- REVAL_DONE, with the default functions of R11. -/
def execRevalDone (m : RevalMap) (s : State) : StepOutcome :=
  execRevalDoneWith functions m s

/-- R134: BUS_RESET. -/
def execBusReset (g : BitVec 32) (s : State) : StepOutcome :=
  if s.portState = .closed then .next s else .next (s.busResetAction (g.setWidth 8))

end Sys2Proof.Machine
end

