-- ==== Sys2Proof/Machine/Frames.lean ====
section
/-! DEFINITION. The six frame kinds (R58, R63 to R68) presented to the packet codec.  The codec "reads no register
of `10_state.md` and writes none": it answers on its own interface what its functions give for the frame
(log entry 6), in any phase and any port state. -/

namespace Sys2Proof.Machine

/-- R64, R84: QWRITE. -/
def execQwriteWith (c : Config.Functions) (h : ReqHdr) (data crc : Quadlet) (s : State) : StepOutcome :=
  .next (s.emit (.codec (reportPlain (encode (.qwrite h data crc)) Config.qwriteSize
    (encQwrite (nodeOfId h.dest) h.addr h.tl data c) c)))

/-- QWRITE, with the default functions of R11. -/
def execQwrite (h : ReqHdr) (data crc : Quadlet) (s : State) : StepOutcome :=
  execQwriteWith functions h data crc s

/-- R66, R86: BWRITE. -/
def execBwriteWith (c : Config.Functions) (h : ReqHdr) (len ext : BitVec 16) (crc : Quadlet)
    (tail : List Byte) (s : State) : StepOutcome :=
  .next (s.emit (.codec (reportBlock (encode (.bwrite h len ext crc tail)) len.toNat Config.bwriteDataCrc
    (fun payload => encBwrite (nodeOfId h.dest) h.addr h.tl payload c) c)))

/-- BWRITE, with the default functions of R11. -/
def execBwrite (h : ReqHdr) (len ext : BitVec 16) (crc : Quadlet) (tail : List Byte) (s : State) : StepOutcome :=
  execBwriteWith functions h len ext crc tail s

/-- R63, R83: QREAD. -/
def execQreadWith (c : Config.Functions) (h : ReqHdr) (crc : Quadlet) (s : State) : StepOutcome :=
  .next (s.emit (.codec (reportPlain (encode (.qread h crc)) Config.qreadSize
    (encQread (nodeOfId h.dest) h.addr h.tl c) c)))

/-- QREAD, with the default functions of R11. -/
def execQread (h : ReqHdr) (crc : Quadlet) (s : State) : StepOutcome :=
  execQreadWith functions h crc s

/-- R65, R85: BREAD. -/
def execBreadWith (c : Config.Functions) (h : ReqHdr) (len ext : BitVec 16) (crc : Quadlet) (s : State) : StepOutcome :=
  .next (s.emit (.codec (reportPlain (encode (.bread h len ext crc)) Config.breadSize
    (encBread (nodeOfId h.dest) h.addr h.tl len c) c)))

/-- BREAD, with the default functions of R11. -/
def execBread (h : ReqHdr) (len ext : BitVec 16) (crc : Quadlet) (s : State) : StepOutcome :=
  execBreadWith functions h len ext crc s

/-- R67, R87: QRESP. -/
def execQrespWith (c : Config.Functions) (h : RespHdr) (data crc : Quadlet) (s : State) : StepOutcome :=
  .next (s.emit (.codec (reportPlain (encode (.qresp h data crc)) Config.qrespSize
    (encQresp h.dest (nodeOfId h.src) h.tl data h.rcode c) c)))

/-- QRESP, with the default functions of R11. -/
def execQresp (h : RespHdr) (data crc : Quadlet) (s : State) : StepOutcome :=
  execQrespWith functions h data crc s

/-- R68, R88: BRESP. -/
def execBrespWith (c : Config.Functions) (h : RespHdr) (len ext : BitVec 16) (crc : Quadlet)
    (tail : List Byte) (s : State) : StepOutcome :=
  .next (s.emit (.codec (reportBlock (encode (.bresp h len ext crc tail)) len.toNat true
    (fun payload => encBresp h.dest (nodeOfId h.src) h.tl payload h.rcode c) c)))

/-- BRESP, with the default functions of R11. -/
def execBresp (h : RespHdr) (len ext : BitVec 16) (crc : Quadlet) (tail : List Byte) (s : State) : StepOutcome :=
  execBrespWith functions h len ext crc tail s

end Sys2Proof.Machine
end

