-- ==== Sys2Proof/Machine/Lifecycle.lean ====
section
/-! DEFINITION. Life cycle and configuration: `INIT`, `SHUTDOWN`, `SET_TIMEOUT`, `SET_NO_FORWARD`, `GET_STATUS`,
`GET_TIMING` (R112 to R117), and `SET_PROTOCOL` (R108). -/

namespace Sys2Proof.Machine

/-- R112: INIT. -/
def execInit (r : Bool) (s : State) : StepOutcome :=
  whenIdle s <|
    match s.portState, r with
    | .closed, _ => answer s .notOperational
    | .faulted, _ => answer s .transportFailure
    | .operational, _ => answer s .ok
    | .constructed, true => answer { s with portState := .operational } .ok
    | .constructed, false => answer s .transportFailure

/-- R113: SHUTDOWN. -/
def execShutdown (s : State) : StepOutcome :=
  whenIdle s <| answer { s with portState := .closed } .ok

/-- R114: SET_TIMEOUT. -/
def execSetTimeout (d : Duration) (s : State) : StepOutcome :=
  whenIdle s <| unlessClosed s <| answer { s with rxTimeout := d } .ok

/-- R115: SET_NO_FORWARD. -/
def execSetNoForward (f : Bool) (s : State) : StepOutcome :=
  whenIdle s <| unlessClosed s <| answer { s with noForward := f } .ok

/-- R108: SET_PROTOCOL. -/
def execSetProtocol (m : BitVec 2) (s : State) : StepOutcome :=
  whenIdle s <|
    match modeOf m with
    | none => answer s .refusedProtocol
    | some mode =>
      unlessClosed s <|
        if mode = .seqRw ∨ s.bcAll = true then answer { s with mode := mode } .ok else answer s .refusedProtocol

/-- R116: what `GET_STATUS` reads. -/
def State.status (s : State) : Status :=
  { portState := s.portState, mode := s.mode, busGen := s.busGen, staleMap := s.staleMap
    inUseMask := s.inUseMask, numBoards := s.numBoards, tl := s.tl, bcSeq := s.bcSeq, noForward := s.noForward }

/-- R116: GET_STATUS. -/
def execGetStatus (s : State) : StepOutcome :=
  whenIdle s <| answer s (.okValue (.status s.status))

/-- R117: what `GET_TIMING` reads. -/
def State.timing (s : State) : Timing :=
  { recvTicks := s.recvTicks, totalTicks := s.totalTicks, trailerFlags := s.trailerFlags, trailerAux := s.trailerAux }

/-- R117: GET_TIMING. -/
def execGetTiming (s : State) : StepOutcome :=
  whenIdle s <| answer s (.okValue (.timing s.timing))

end Sys2Proof.Machine
end

