-- ==== Sys2Proof/Machine/Registry.lean ====
section
/-! DEFINITION. The board-to-node mapper: adding and removing boards, assigning nodes, lookups (R96 to R107). -/

namespace Sys2Proof.Machine

/-- R97: ADD_BOARD.  With `num_boards` = 2^32 - 1 the spec gives no step (R97 (iv), U6). -/
def execAddBoard (b : Byte) (fw : Quadlet) (cap : Bool) (s : State) : StepOutcome :=
  whenIdle s <| withBoard s b fun bid => unlessClosed s <|
    if s.numBoards = BitVec.allOnes 32 then .fault .countOverflow
    else answer (s.register bid fw cap) .ok

/-- R98: REMOVE_BOARD. -/
def execRemoveBoard (b : Byte) (s : State) : StepOutcome :=
  whenIdle s <| withBoard s b fun bid => whenRegistered s bid <| unlessClosed s <|
    answer (s.unregister bid) .ok

/-- R99: MAP_NODE. -/
def execMapNode (b n : Byte) (s : State) : StepOutcome :=
  whenIdle s <| withBoard s b fun bid => whenRegistered s bid <| withNode s n fun nid => unlessClosed s <|
    answer (s.mapNode bid nid) .ok

/-- R100: UNMAP_NODE. -/
def execUnmapNode (b : Byte) (s : State) : StepOutcome :=
  whenIdle s <| withBoard s b fun bid => whenRegistered s bid <| unlessClosed s <|
    answer (s.unassign bid) .ok

/-- R103: BOARD_EXISTS. -/
def execBoardExists (b : Byte) (s : State) : StepOutcome :=
  whenIdle s <| withBoard s b fun bid => unlessClosed s <|
    answer s (.okBool (s.slot bid).present)

/-- R104: FW_VERSION. -/
def execFwVersion (b : Byte) (s : State) : StepOutcome :=
  whenIdle s <| withBoard s b fun bid => whenRegistered s bid <| unlessClosed s <|
    answer s (.okValue (.num (s.slot bid).fwVersion.toNat))

/-- R105: NODE_FOR_BOARD. -/
def execNodeForBoard (b : Byte) (s : State) : StepOutcome :=
  whenIdle s <| withBoard s b fun bid => unlessClosed s <|
    .next (s.lookup (.nfb bid) fun s => s.answerNodeFor bid)

/-- R106: BOARD_FOR_NODE. -/
def execBoardForNode (n : Byte) (s : State) : StepOutcome :=
  whenIdle s <| unlessClosed s <|
    match nodeOf n with
    | none => answer s (.okValue (.num Config.noBoard))
    | some nid => .next (s.lookup (.bfn nid) fun s => s.answerBoardFor nid)

/-- R107: BC_CAPABLE_ALL. -/
def execBcCapableAll (s : State) : StepOutcome :=
  whenIdle s <| unlessClosed s <| answer s (.okBool s.bcAll)

end Sys2Proof.Machine
end

