-- ==== Sys2Proof/Machine/Unicast.lean ====
section
/-! DEFINITION. The four unicast commands (R109, R118 to R121), up to the frame or the revalidation query they
hand to the transport; the events of `Machine/Events.lean` finish them. -/

namespace Sys2Proof.Machine

/-- R118: READ_QUADLET. -/
def execReadQuadletWith (c : Config.Functions) (b : Byte) (a : Addr) (s : State) : StepOutcome :=
  unicastPrologue s b fun bid => unicastGo s (.rq bid a) bid c

/-- READ_QUADLET, with the default functions of R11. -/
def execReadQuadlet (b : Byte) (a : Addr) (s : State) : StepOutcome :=
  execReadQuadletWith functions b a s

/-- R119: WRITE_QUADLET. -/
def execWriteQuadletWith (c : Config.Functions) (b : Byte) (a : Addr) (v : Quadlet) (s : State) : StepOutcome :=
  unicastPrologue s b fun bid => unicastGo s (.wq bid a v) bid c

/-- WRITE_QUADLET, with the default functions of R11. -/
def execWriteQuadlet (b : Byte) (a : Addr) (v : Quadlet) (s : State) : StepOutcome :=
  execWriteQuadletWith functions b a v s

/-- R120: READ_BLOCK. -/
def execReadBlockWith (c : Config.Functions) (b : Byte) (a : Addr) (len : BitVec 32) (s : State) : StepOutcome :=
  unicastPrologue s b fun bid => whenLength s len.toNat <| unicastGo s (.rb bid a len) bid c

/-- READ_BLOCK, with the default functions of R11. -/
def execReadBlock (b : Byte) (a : Addr) (len : BitVec 32) (s : State) : StepOutcome :=
  execReadBlockWith functions b a len s

/-- R121: WRITE_BLOCK. -/
def execWriteBlockWith (c : Config.Functions) (b : Byte) (a : Addr) (data : List Byte) (s : State) : StepOutcome :=
  unicastPrologue s b fun bid => whenLength s data.length <| unicastGo s (.wb bid a data) bid c

/-- WRITE_BLOCK, with the default functions of R11. -/
def execWriteBlock (b : Byte) (a : Addr) (data : List Byte) (s : State) : StepOutcome :=
  execWriteBlockWith functions b a data s

end Sys2Proof.Machine
end

