-- ==== Sys2Proof/Machine/Dispatch.lean ====
section
/-! DEFINITION. From an instruction to its meaning, one arm each. -/

namespace Sys2Proof.Machine

def exec (i : Instr) (s : State) : Host.Outcome State Fault Refusal :=
  match i with
  | .qwrite h data crc => Sys2Proof.Machine.execQwrite h data crc s
  | .bwrite h len ext crc tail => Sys2Proof.Machine.execBwrite h len ext crc tail s
  | .qread h crc => Sys2Proof.Machine.execQread h crc s
  | .bread h len ext crc => Sys2Proof.Machine.execBread h len ext crc s
  | .qresp h data crc => Sys2Proof.Machine.execQresp h data crc s
  | .bresp h len ext crc tail => Sys2Proof.Machine.execBresp h len ext crc tail s
  | .init r => Sys2Proof.Machine.execInit r s
  | .shutdown => Sys2Proof.Machine.execShutdown s
  | .setTimeout d => Sys2Proof.Machine.execSetTimeout d s
  | .setNoForward f => Sys2Proof.Machine.execSetNoForward f s
  | .setProtocol m => Sys2Proof.Machine.execSetProtocol m s
  | .getStatus => Sys2Proof.Machine.execGetStatus s
  | .getTiming => Sys2Proof.Machine.execGetTiming s
  | .addBoard b fw cap => Sys2Proof.Machine.execAddBoard b fw cap s
  | .removeBoard b => Sys2Proof.Machine.execRemoveBoard b s
  | .mapNode b n => Sys2Proof.Machine.execMapNode b n s
  | .unmapNode b => Sys2Proof.Machine.execUnmapNode b s
  | .boardExists b => Sys2Proof.Machine.execBoardExists b s
  | .fwVersion b => Sys2Proof.Machine.execFwVersion b s
  | .nodeForBoard b => Sys2Proof.Machine.execNodeForBoard b s
  | .boardForNode n => Sys2Proof.Machine.execBoardForNode n s
  | .bcCapableAll => Sys2Proof.Machine.execBcCapableAll s
  | .readQuadlet b a => Sys2Proof.Machine.execReadQuadlet b a s
  | .writeQuadlet b a v => Sys2Proof.Machine.execWriteQuadlet b a v s
  | .readBlock b a len => Sys2Proof.Machine.execReadBlock b a len s
  | .writeBlock b a data => Sys2Proof.Machine.execWriteBlock b a data s
  | .writeBcQuadlet a v => Sys2Proof.Machine.execWriteBcQuadlet a v s
  | .writeBcBlock a data => Sys2Proof.Machine.execWriteBcBlock a data s
  | .writeBcReadRequest seq => Sys2Proof.Machine.execWriteBcReadRequest seq s
  | .waitBcRead => Sys2Proof.Machine.execWaitBcRead s
  | .sendDone r => Sys2Proof.Machine.execSendDone r s
  | .recvDone r => Sys2Proof.Machine.execRecvDone r s
  | .revalDone m => Sys2Proof.Machine.execRevalDone m s
  | .busReset g => Sys2Proof.Machine.execBusReset g s

end Sys2Proof.Machine
end

