-- ==== Sys2Proof/Machine/Step.lean ====
section
/-! DEFINITION. One step (R8): the next thing the environment presents is taken, decoded and executed. -/

namespace Sys2Proof.Machine

/-- One presentation, taken: a reset, or a message that spells an instruction or none. -/
def take (p : Presentation) (s : State) : Host.Outcome State Fault Refusal :=
  match p with
  | .reset => .next s.platformReset
  | .message port bytes =>
    match decode port bytes with
    | .ok i => exec i s
    | .error e => undecoded port bytes e s

/-- One step.  With nothing presented PKT1394 waits (R160: "after reset PKT1394 waits in `phase = IDLE` for the
first host command"; R136: a command whose event never comes leaves the run unfinished). -/
def step (s : State) : Host.Outcome State Fault Refusal :=
  match s.input with
  | [] => .next s
  | p :: rest => take p { s with input := rest }

/-- `s` with the instruction of a table word presented next. -/
def State.withFetchWord (s : State) (nbits w : Nat) : State := s.present (tableMessage nbits w)

end Sys2Proof.Machine
end

