-- ==== Sys2Proof/Machine/Configured.lean ====
section
/-! DEFINITION. The machine with other configuration functions (R11): a `Configuration` is functions of which `crc32`
keeps the property of R81, and `Configuration.step` is its step.  `execWith` and `stepWith` are what it runs, said of the
functions alone; `exec` and `step` are they with the defaults: `execWith_functions` and `stepWith_functions` of
`Laws/Effect.lean` say so. -/

namespace Sys2Proof.Machine

/-- From an instruction to its meaning, with the configuration functions `c`.  Only what builds or judges a frame
depends on them. -/
def execWith (c : Config.Functions) (i : Instr) (s : State) : StepOutcome :=
  match i with
  | .qwrite h data crc => execQwriteWith c h data crc s
  | .bwrite h len ext crc tail => execBwriteWith c h len ext crc tail s
  | .qread h crc => execQreadWith c h crc s
  | .bread h len ext crc => execBreadWith c h len ext crc s
  | .qresp h data crc => execQrespWith c h data crc s
  | .bresp h len ext crc tail => execBrespWith c h len ext crc tail s
  | .init r => execInit r s
  | .shutdown => execShutdown s
  | .setTimeout d => execSetTimeout d s
  | .setNoForward f => execSetNoForward f s
  | .setProtocol m => execSetProtocol m s
  | .getStatus => execGetStatus s
  | .getTiming => execGetTiming s
  | .addBoard b fw cap => execAddBoard b fw cap s
  | .removeBoard b => execRemoveBoard b s
  | .mapNode b n => execMapNode b n s
  | .unmapNode b => execUnmapNode b s
  | .boardExists b => execBoardExists b s
  | .fwVersion b => execFwVersion b s
  | .nodeForBoard b => execNodeForBoard b s
  | .boardForNode n => execBoardForNode n s
  | .bcCapableAll => execBcCapableAll s
  | .readQuadlet b a => execReadQuadletWith c b a s
  | .writeQuadlet b a v => execWriteQuadletWith c b a v s
  | .readBlock b a len => execReadBlockWith c b a len s
  | .writeBlock b a data => execWriteBlockWith c b a data s
  | .writeBcQuadlet a v => execWriteBcQuadletWith c a v s
  | .writeBcBlock a data => execWriteBcBlockWith c a data s
  | .writeBcReadRequest seq => execWriteBcReadRequestWith c seq s
  | .waitBcRead => execWaitBcRead s
  | .sendDone r => execSendDone r s
  | .recvDone r => execRecvDoneWith c r s
  | .revalDone m => execRevalDoneWith c m s
  | .busReset g => execBusReset g s

/-- One step, with the configuration functions `c`. -/
def stepWith (c : Config.Functions) (s : State) : StepOutcome :=
  match s.input with
  | [] => .next s
  | .reset :: rest => .next { s with input := rest }.platformReset
  | .message port bytes :: rest =>
    match decode port bytes with
    | .ok i => execWith c i { s with input := rest }
    | .error e => undecoded port bytes e { s with input := rest }

/-- R11, R81, D7: a configuration of PKT1394.  "A model that replaces `crc32` must keep that property as a named
assumption": it is the field `detectsFlips`. -/
structure Configuration where
  functions : Config.Functions
  detectsFlips : DetectsFlips functions

/-- From an instruction to its meaning, in the machine so configured. -/
def Configuration.exec (m : Configuration) (i : Instr) (s : State) : StepOutcome := execWith m.functions i s

/-- One step of the machine so configured. -/
def Configuration.step (m : Configuration) (s : State) : StepOutcome := stepWith m.functions s

end Sys2Proof.Machine
end

