-- ==== Sys2Proof/Safety.lean ====
section
/-! DEFINITION. The terms the claims use: the invariants of R22 and of the sequencer, what a step answers, and
what the host has been told. -/

namespace Sys2Proof.Machine

/-! ### The invariants of the tables (R22) -/

/-- R22 (I1): the in-use mask agrees with the slots. -/
abbrev MaskMatches (s : State) : Prop := ∀ b : BoardId, s.inUseMask.getLsbD b.val = (s.slot b).present

/-- R22 (I2), R21: the two maps are inverses of each other. -/
abbrev MapsInverse (s : State) : Prop :=
  ∀ (b : BoardId) (n : NodeId), (s.slot b).node = some n ↔ s.boardAt n = some b

/-- R22 (I3): an empty slot has no node. -/
abbrev EmptyUnmapped (s : State) : Prop := ∀ b : BoardId, (s.slot b).present = false → (s.slot b).node = none

/-- R22 (I4): nothing is in flight exactly in `IDLE`. -/
abbrev IdleIffNothingInFlight (s : State) : Prop := s.phase = .idle ↔ s.inflight = none

/-- R22: the four invariants. -/
abbrev TableInvariants (s : State) : Prop :=
  MaskMatches s ∧ MapsInverse s ∧ EmptyUnmapped s ∧ IdleIffNothingInFlight s

/-! ### The invariants of the sequencer -/

/-- The commands that make a node lookup (R101), and so can wait for a revalidation answer. -/
def Pending.looksUp : Pending → Bool
  | .rq .. | .wq .. | .rb .. | .wb .. | .nfb .. | .bfn .. => true
  | .bwq .. | .bwb .. | .brr .. | .wbr => false

/-- The commands that send a frame (R109, R110). -/
def Pending.sends : Pending → Bool
  | .rq .. | .wq .. | .rb .. | .wb .. | .bwq .. | .bwb .. | .brr .. => true
  | .wbr | .nfb .. | .bfn .. => false

/-- The unicast reads (R118, R120). -/
def Pending.reads : Pending → Bool
  | .rq .. | .rb .. => true
  | .wq .. | .wb .. | .bwq .. | .bwb .. | .brr .. | .wbr | .nfb .. | .bfn .. => false

/-- The block lengths a command in flight can have (R48). -/
def Pending.lengthOk : Pending → Bool
  | .rb _ _ len => legalLength len.toNat
  | .wb _ _ data | .bwb _ data => legalLength data.length
  | .rq .. | .wq .. | .bwq .. | .brr .. | .wbr | .nfb .. | .bfn .. => true

/-- The board of a unicast command (R109 P2: it was registered when the command was accepted). -/
def Pending.unicastBoard : Pending → Option BoardId
  | .rq b _ | .wq b _ _ | .rb b _ _ | .wb b _ _ => some b
  | .bwq .. | .bwb .. | .brr .. | .wbr | .nfb .. | .bfn .. => none

/-- The record is the one R109 P8 or R110 B5 makes. -/
def Inflight.isSent (f : Inflight) : Bool :=
  f.node.isSome && f.expTl.isSome && (f.expTcode == f.cmd.expTcode) && (f.expLen == f.cmd.expLen)

/-- What `inflight` holds in each phase (R101, R109, R110, R126, R128). -/
def Phase.fits (p : Phase) (f : Option Inflight) : Bool :=
  match p, f with
  | .idle, none => true
  | .waitReval, some f => f.cmd.looksUp && f == Inflight.held f.cmd
  | .waitSend, some f => f.cmd.sends && f.isSent
  | .waitRecv, some f => (f.cmd.reads && f.isSent) || f == Inflight.awaiting
  | .idle, some _ => false
  | .waitReval, none => false
  | .waitSend, none => false
  | .waitRecv, none => false

/-- R20, R98 (i): how many boards are registered. -/
def State.registered (s : State) : Nat := (List.finRange 16).countP fun b => (s.slot b).present

/-- R98 (i): `num_boards` is never smaller than the number of registered boards. -/
abbrev CountCovers (s : State) : Prop := s.registered ≤ s.numBoards.toNat

/-- R152: a command is in flight only while the port is `Operational`. -/
abbrev BusyOnlyOperational (s : State) : Prop := s.phase ≠ .idle → s.portState = .operational

/-- R48, R56: the command in flight has a legal length, and its board is still registered. -/
def State.inflightLegal (s : State) : Bool :=
  match s.inflight with
  | none => true
  | some f =>
    f.cmd.lengthOk &&
      match f.cmd.unicastBoard with
      | none => true
      | some b => (s.slot b).present

/-- The invariant of the machine: the tables', and the sequencer's. -/
abbrev Inv (s : State) : Prop :=
  TableInvariants s ∧ CountCovers s ∧ BusyOnlyOperational s ∧ s.phase.fits s.inflight = true ∧ s.inflightLegal = true

/-! ### What a step answers -/

/-- `exec` ends the command with the result `r`, and nothing but the `RES` interface changes. -/
abbrev Answers (i : Instr) (s : State) (r : Result) : Prop :=
  exec i s = .next { s with out := s.out ++ [.result r] }

/-- The answer is a next state. -/
def Continues (o : Host.Outcome State Fault Refusal) : Prop := ∃ t, o = .next t

/-! ### What the host and the transport have been told -/

/-- The output is a result. -/
def Output.isResult : Output → Bool
  | .result _ => true
  | .send _ | .receive _ | .revalidate | .diag _ | .codec _ => false

/-- The output is a `send`. -/
def Output.isSend : Output → Bool
  | .send _ => true
  | .result _ | .receive _ | .revalidate | .diag _ | .codec _ => false

/-- The output is a `receive`. -/
def Output.isReceive : Output → Bool
  | .receive _ => true
  | .result _ | .send _ | .revalidate | .diag _ | .codec _ => false

/-- The result carries data of a response. -/
def Output.carriesData : Output → Bool
  | .result (.okQuadlet _) | .result (.okBytes _) => true
  | .result _ | .send _ | .receive _ | .revalidate | .diag _ | .codec _ => false

/-- The log entry an output carries. -/
def Output.entry : Output → Option LogEntry
  | .diag e => some e
  | .result _ | .send _ | .receive _ | .revalidate | .codec _ => none

/-- How many results the host has been given. -/
def State.results (s : State) : Nat := s.out.countP Output.isResult

/-- Whether a result is owed: a command is in flight. -/
def State.owed (s : State) : Nat := if s.phase = .idle then 0 else 1

/-- The presentation is a host command. -/
def Presentation.isCommand : Presentation → Bool
  | .message .cmd _ => true
  | .message .event _ | .message .codec _ | .reset => false

/-- R136: the run has ended: no host command is left, and `phase = IDLE`, so that the last one has its result or, if a
reset came while it was in flight, was discarded without one (R160, U17).  An event, a late response included, may
still come.  R136 names neither a reset nor a run without a command: that both runs have ended is a DESIGN CHOICE of
the model (log entry 18). -/
abbrev State.runEnded (s : State) : Prop := (∀ p ∈ s.input, p.isCommand = false) ∧ s.phase = .idle

end Sys2Proof.Machine

namespace Sys2Proof

open Machine

/-! ### The shapes of commands the claims group -/

/-- The board operand and the block length of a unicast command (R109). -/
def Instr.unicast : Instr → Option (Byte × Option Nat)
  | .readQuadlet b _ => some (b, none)
  | .writeQuadlet b _ _ => some (b, none)
  | .readBlock b _ len => some (b, some len.toNat)
  | .writeBlock b _ data => some (b, some data.length)
  | .qwrite .. | .bwrite .. | .qread .. | .bread .. | .qresp .. | .bresp ..
  | .init .. | .shutdown | .setTimeout .. | .setNoForward .. | .setProtocol .. | .getStatus | .getTiming
  | .addBoard .. | .removeBoard .. | .mapNode .. | .unmapNode .. | .boardExists .. | .fwVersion ..
  | .nodeForBoard .. | .boardForNode .. | .bcCapableAll
  | .writeBcQuadlet .. | .writeBcBlock .. | .writeBcReadRequest .. | .waitBcRead
  | .sendDone .. | .recvDone .. | .revalDone .. | .busReset .. => none

/-- The commands that make a node lookup (R101). -/
def Instr.looksUp : Instr → Bool
  | .nodeForBoard .. | .boardForNode .. | .readQuadlet .. | .writeQuadlet .. | .readBlock .. | .writeBlock .. => true
  | .qwrite .. | .bwrite .. | .qread .. | .bread .. | .qresp .. | .bresp ..
  | .init .. | .shutdown | .setTimeout .. | .setNoForward .. | .setProtocol .. | .getStatus | .getTiming
  | .addBoard .. | .removeBoard .. | .mapNode .. | .unmapNode .. | .boardExists .. | .fwVersion ..
  | .bcCapableAll | .writeBcQuadlet .. | .writeBcBlock .. | .writeBcReadRequest .. | .waitBcRead
  | .sendDone .. | .recvDone .. | .revalDone .. | .busReset .. => false

/-- The command in flight a unicast command becomes, for its board id (R34). -/
def Instr.pending (i : Instr) (b : BoardId) : Option Pending :=
  match i with
  | .readQuadlet _ a => some (.rq b a)
  | .writeQuadlet _ a v => some (.wq b a v)
  | .readBlock _ a len => some (.rb b a len)
  | .writeBlock _ a data => some (.wb b a data)
  | .qwrite .. | .bwrite .. | .qread .. | .bread .. | .qresp .. | .bresp ..
  | .init .. | .shutdown | .setTimeout .. | .setNoForward .. | .setProtocol .. | .getStatus | .getTiming
  | .addBoard .. | .removeBoard .. | .mapNode .. | .unmapNode .. | .boardExists .. | .fwVersion ..
  | .nodeForBoard .. | .boardForNode .. | .bcCapableAll
  | .writeBcQuadlet .. | .writeBcBlock .. | .writeBcReadRequest .. | .waitBcRead
  | .sendDone .. | .recvDone .. | .revalDone .. | .busReset .. => none

/-- The modes a broadcast command needs and the block length it carries (R110). -/
def Instr.broadcast : Instr → Option (List Mode × Option Nat)
  | .writeBcQuadlet .. => some ([.seqRBcW, .bcQrw], none)
  | .writeBcBlock _ data => some ([.seqRBcW, .bcQrw], some data.length)
  | .writeBcReadRequest .. => some ([.bcQrw], none)
  | .waitBcRead => some ([.bcQrw], none)
  | .qwrite .. | .bwrite .. | .qread .. | .bread .. | .qresp .. | .bresp ..
  | .init .. | .shutdown | .setTimeout .. | .setNoForward .. | .setProtocol .. | .getStatus | .getTiming
  | .addBoard .. | .removeBoard .. | .mapNode .. | .unmapNode .. | .boardExists .. | .fwVersion ..
  | .nodeForBoard .. | .boardForNode .. | .bcCapableAll
  | .readQuadlet .. | .writeQuadlet .. | .readBlock .. | .writeBlock ..
  | .sendDone .. | .recvDone .. | .revalDone .. | .busReset .. => none

end Sys2Proof
end

