-- ==== Sys2Proof/Certificates/Slice0/Obligations.lean ====
section
/-! DEFINITION. The statements about the machine.  `Answers i s r` says that `exec i s` is the next state that
differs from `s` only by the result `r` on `RES`. -/

open Sys2Proof Sys2Proof.Machine

/-! ## Encoding, decoding, stepping, reset -/

/-- Every well-formed instruction, of every kind, is read back from its encoding with every operand (R59 to R68,
R76, R77; the operand bytes of the events and of `SET_TIMEOUT` are the model's own form, log entries 4 and 5). -/
def Obligations.DecodeOfEncodeIsTheInstruction : Prop :=
  ∀ i : Instr, i.wf = true → decode i.port (encode i) = .ok i

/-- One message of each family, written out byte by byte from the spec's encodings, decodes to the instruction it
stands for: V20 (QREAD), V24 (QWRITE), V25 (BREAD), V31 (BRESP), and commands of R76.  The last clause is a
`BUS_RESET` event: R77 gives its code 0x83 and its 32-bit operand, and the byte form is the model's choice (log
entry 5). -/
def Obligations.SpecBytesDecode : Prop :=
  decode .codec [0xFF, 0xC2, 0x00, 0x40, 0xFF, 0xFF, 0x00, 0x00, 0x00, 0x00, 0x00, 0x04, 0x3E, 0x31, 0xC1, 0xC5] =
      .ok (.qread ⟨0xFFC2, 0, 0, 0, 0xFFFF, 0x04⟩ 0x3E31C1C5) ∧
  decode .codec [0xFF, 0xC1, 0xA8, 0x00, 0xFF, 0xFF, 0x12, 0x34, 0x56, 0x78, 0x9A, 0xBC, 0x01, 0x02, 0x03, 0x04,
      0x1F, 0x3B, 0x60, 0x0F] = .ok (.qwrite ⟨0xFFC1, 42, 0, 0, 0xFFFF, 0x123456789ABC⟩ 0x01020304 0x1F3B600F) ∧
  decode .codec [0xFF, 0xC5, 0xFC, 0x50, 0xFF, 0xFF, 0x00, 0x00, 0x00, 0x00, 0x10, 0x00, 0x00, 0x08, 0x00, 0x00,
      0x16, 0xC1, 0xFD, 0xB4] = .ok (.bread ⟨0xFFC5, 63, 0, 0, 0xFFFF, 0x1000⟩ 8 0 0x16C1FDB4) ∧
  decode .codec [0xFF, 0xFF, 0x00, 0x70, 0xFF, 0xC5, 0x00, 0x00, 0x00, 0x00, 0x00, 0x00, 0x00, 0x00, 0x00, 0x00,
      0x29, 0x5C, 0x9F, 0x9A, 0x00, 0x00, 0x00, 0x00] =
      .ok (.bresp ⟨0xFFFF, 0, 0, 0, 0xFFC5, 0, 0, 0⟩ 0 0 0x295C9F9A [0x00, 0x00, 0x00, 0x00]) ∧
  decode .cmd [0x10, 0x03, 0x00, 0x00, 0x00, 0x01, 0x00] = .ok (.addBoard 3 1 false) ∧
  decode .cmd [0x05, 0x01] = .ok (.setProtocol 1) ∧
  decode .cmd [0x21, 0x02, 0x00, 0x00, 0x00, 0x00, 0x00, 0x04, 0xDE, 0xAD, 0xBE, 0xEF] =
      .ok (.writeQuadlet 2 0x04 0xDEADBEEF) ∧
  decode .cmd [0x29, 0x00, 0x00, 0x00, 0x00, 0x20, 0x00, 0x00, 0x04, 0x11, 0x22, 0x33, 0x44] =
      .ok (.writeBcBlock 0x2000 [0x11, 0x22, 0x33, 0x44]) ∧
  decode .event [0x83, 0x00, 0x00, 0x01, 0x2A] = .ok (.busReset 0x12A)

/-- R75, U15: a code byte outside the tables of R76 and R77 spells no command and no event, and `step` refuses it by
name (that a message starts with its code byte is R76 for a command, the model's choice for an event, log entry 5).
R89, R75: a frame of a transaction code outside R58 has the kind `Unknown`, and a frame shorter than its header has no
header (`TooShort`).  That such a frame, presented to the codec, is answered with exactly what `decode_header` gives
for it, and that no register changes, is the model's choice (log entry 6). -/
def Obligations.CodesOutsideTheTablesAreNotInstructions : Prop :=
  (∀ (s : State) (code : Byte) (ops : List Byte) (rest : List Presentation),
    code.toNat ∉ [0x01, 0x02, 0x03, 0x04, 0x05, 0x06, 0x07, 0x10, 0x11, 0x12, 0x13, 0x18, 0x19, 0x1A, 0x1B, 0x1C,
      0x20, 0x21, 0x22, 0x23, 0x28, 0x29, 0x2A, 0x2B] →
    s.input = .message .cmd (code :: ops) :: rest → step s = .refused (.undecodable (.unknownCommand code))) ∧
  (∀ (s : State) (code : Byte) (ops : List Byte) (rest : List Presentation),
    code.toNat ∉ [0x80, 0x81, 0x82, 0x83] →
    s.input = .message .event (code :: ops) :: rest → step s = .refused (.undecodable (.unknownEvent code))) ∧
  (∀ (s : State) (f : List Byte) (rest : List Presentation),
    20 ≤ f.length → (q0Tcode (quadAt f 0)).toNat ∉ [0x0, 0x1, 0x4, 0x5, 0x6, 0x7] →
    s.input = .message .codec f :: rest →
    (decodeHeader f).map HeaderRecord.kind = some (.unknown (q0Tcode (quadAt f 0))) ∧
    step s = .next { s with input := rest, out := s.out ++ [.codec
      { header := decodeHeader f, headerCrcOk := none, dataCrcOk := none, rebuilt := none }] }) ∧
  (∀ (s : State) (f : List Byte) (rest : List Presentation),
    f.length < 16 ∨ (f.length < 20 ∧ q0Tcode (quadAt f 0) ≠ 0x4) →
    s.input = .message .codec f :: rest →
    decodeHeader f = none ∧
    step s = .next { s with input := rest, out := s.out ++ [.codec
      { header := none, headerCrcOk := none, dataCrcOk := none, rebuilt := none }] })

/-- A step takes one message and runs the instruction it decodes to, on the state without that message (R8: a step
starts with a command, an event or a reset; R151: between steps).  That what will be presented is a list in the state,
of which each step takes the first, and that the step of a machine to which nothing is presented leaves the state
alone, as waiting, is the model's choice (log entry 1). -/
def Obligations.StepRunsTheDecodedInstruction : Prop :=
  (∀ (s : State) (port : Port) (bytes : List Byte) (rest : List Presentation) (i : Instr),
    s.input = .message port bytes :: rest → decode port bytes = .ok i →
    step s = exec i { s with input := rest }) ∧
  (∀ s : State, s.input = [] → step s = .next s)

/-- R44: every register's value after reset, for the reset state and for a reset presented at any time, in any
state, a command in flight included; nothing survives it. The value of `fw_version` and `bc_capable` of an
empty slot is left out, as the spec leaves it unspecified. -/
def Obligations.ResetValues : Prop :=
  ∀ (s t : State) (rest : List Presentation),
    (t = State.reset ∨ (s.input = .reset :: rest ∧ step s = .next t)) →
    (∀ b, (t.slot b).present = false ∧ (t.slot b).node = none) ∧ (∀ n, t.boardAt n = none) ∧
    t.inUseMask = 0 ∧ t.numBoards = 0 ∧ t.portState = .constructed ∧ t.mode = .seqRw ∧ t.busGen = 0 ∧
    t.staleMap = false ∧ t.tl = 0 ∧ t.bcSeq = 0 ∧ t.rxTimeout = Config.rxTimeoutDefault ∧ t.noForward = false ∧
    t.recvTicks = 0 ∧ t.totalTicks = 0 ∧ t.trailerFlags = 0 ∧ t.trailerAux = 0 ∧ t.phase = .idle ∧
    t.inflight = none ∧ t.diagLog = []

/-! ## The codec -/

/-- R90: `decode_header` gives back what each encoder was given, and every encoded frame passes `check_crc` on its
header region. -/
def Obligations.HeaderRoundTrip : Prop :=
  ∀ (n s : NodeNum) (a : Addr) (t : Label) (v : Quadlet) (len : BitVec 16) (data : List Byte) (dst : BitVec 16)
    (rc : BitVec 4), data.length ≤ 65535 →
    (∃ r, decodeHeader (encQread n a t) = some r ∧ r.kind = .qread ∧ r.destinationId = 0xFFC0 ||| n.setWidth 16 ∧
      r.tl = t ∧ r.addr = some a ∧ r.sourceId = 0xFFFF ∧ checkCrc (slice (encQread n a t) 0 16) = true) ∧
    (∃ r, decodeHeader (encQwrite n a t v) = some r ∧ r.kind = .qwrite ∧ r.destinationId = 0xFFC0 ||| n.setWidth 16 ∧
      r.tl = t ∧ r.addr = some a ∧ r.sourceId = 0xFFFF ∧ r.quadletData = some v ∧
      checkCrc (slice (encQwrite n a t v) 0 20) = true) ∧
    (∃ r, decodeHeader (encBread n a t len) = some r ∧ r.kind = .bread ∧ r.destinationId = 0xFFC0 ||| n.setWidth 16 ∧
      r.tl = t ∧ r.addr = some a ∧ r.sourceId = 0xFFFF ∧ r.dataLength = some len ∧
      checkCrc (slice (encBread n a t len) 0 20) = true) ∧
    (∃ r, decodeHeader (encBwrite n a t data) = some r ∧ r.kind = .bwrite ∧
      r.destinationId = 0xFFC0 ||| n.setWidth 16 ∧ r.tl = t ∧ r.addr = some a ∧ r.sourceId = 0xFFFF ∧
      r.dataLength.map BitVec.toNat = some data.length ∧ r.payload = some data ∧
      checkCrc (slice (encBwrite n a t data) 0 20) = true) ∧
    (∃ r, decodeHeader (encQresp dst s t v rc) = some r ∧ r.kind = .qresp ∧ r.destinationId = dst ∧ r.tl = t ∧
      r.sourceNode = s ∧ r.rcode = some rc ∧ r.quadletData = some v ∧
      checkCrc (slice (encQresp dst s t v rc) 0 20) = true) ∧
    (∃ r, decodeHeader (encBresp dst s t data rc) = some r ∧ r.kind = .bresp ∧ r.destinationId = dst ∧ r.tl = t ∧
      r.sourceNode = s ∧ r.rcode = some rc ∧ r.dataLength.map BitVec.toNat = some data.length ∧
      r.payload = some data ∧ checkCrc (slice (encBresp dst s t data rc) 0 20) = true)

/-- R81: what `check_crc` answers for every buffer; a buffer with its own CRC appended checks, whatever function `crc32`
is; with the default `crc32`, one bit flipped anywhere in it, in the buffer or in the CRC, and it does not. -/
def Obligations.CrcChecksAndDetectsEverySingleBitFlip : Prop :=
  (∀ buf : List Byte, buf.length < 4 → checkCrc buf = false) ∧
  (∀ buf : List Byte, 4 ≤ buf.length →
    (checkCrc buf = true ↔ be32 (crc32 (buf.take (buf.length - 4))) = buf.drop (buf.length - 4))) ∧
  (∀ (c : Config.Functions) (m : List Byte), checkCrc (m ++ computeCrc m c) c = true) ∧
  (∀ (m : List Byte) (i j : Nat), i < m.length + 4 → j < 8 → checkCrc (flipBit (m ++ computeCrc m) i j) = false)

/-- R79: the check values of the default CRC, and its residue: a buffer with its own CRC appended always has the CRC
0x38FB2284. -/
def Obligations.CrcResidueIsConstant : Prop :=
  crc32 [] = 0x00000000 ∧ crc32 [0xFF, 0xFF, 0xFF, 0xFF] = 0xFFFFFFFF ∧
  crc32 [0x31, 0x32, 0x33, 0x34, 0x35, 0x36, 0x37, 0x38, 0x39] = 0xFC891918 ∧
  ∀ m : List Byte, crc32 (m ++ be32 (crc32 m)) = 0x38FB2284

/-- R91: the verdict of `validate_response` is the first check that fails, in the order length, node, tcode, label,
CRC; a frame that passes all is `Valid`.  R131 step 2: the verdict on an aggregated broadcast response is the first of
length, tcode, CRC that fails, with the payload length the frame itself states, and neither node nor label is
examined. -/
def Obligations.ValidationReportsTheFirstFailingCheck : Prop :=
  (∀ (f : List Byte) (node : NodeNum) (tcode : BitVec 4) (label : Label) (len want : Nat),
    (tcode = 0x6 ∧ want = 20) ∨ (tcode = 0x7 ∧ want = 20 + len + 4) →
    let lengthOk : Prop := f.length = want ∧ (tcode = 0x7 → (q3Length (quadAt f 3)).toNat = len)
    let nodeOk : Prop := q1SrcNode (quadAt f 1) = node
    let tcodeOk : Prop := q0Tcode (quadAt f 0) = tcode
    let labelOk : Prop := q0Tl (quadAt f 0) = label
    let crcOk : Prop := checkCrc (slice f 0 20) = true ∧ (tcode = 0x7 → checkCrc (slice f 20 want) = true)
    (validateResponse f node tcode label len = .lengthMismatch ↔ ¬ lengthOk) ∧
    (validateResponse f node tcode label len = .nodeMismatch ↔ lengthOk ∧ ¬ nodeOk) ∧
    (validateResponse f node tcode label len = .tcodeMismatch ↔ lengthOk ∧ nodeOk ∧ ¬ tcodeOk) ∧
    (validateResponse f node tcode label len = .labelMismatch ↔ lengthOk ∧ nodeOk ∧ tcodeOk ∧ ¬ labelOk) ∧
    (validateResponse f node tcode label len = .crcFailure ↔ lengthOk ∧ nodeOk ∧ tcodeOk ∧ labelOk ∧ ¬ crcOk) ∧
    (validateResponse f node tcode label len = .valid ↔ lengthOk ∧ nodeOk ∧ tcodeOk ∧ labelOk ∧ crcOk)) ∧
  (∀ f : List Byte,
    let len : Nat := (q3Length (quadAt f 3)).toNat
    let lengthOk : Prop := 24 ≤ f.length ∧ f.length = 20 + len + 4 ∧ len ≠ 0 ∧ len % 4 = 0
    let tcodeOk : Prop := q0Tcode (quadAt f 0) = 0x7
    let crcOk : Prop := checkCrc (slice f 0 20) = true ∧ checkCrc (slice f 20 (20 + len + 4)) = true
    (validateBroadcast f = .lengthMismatch ↔ ¬ lengthOk) ∧
    (validateBroadcast f = .tcodeMismatch ↔ lengthOk ∧ ¬ tcodeOk) ∧
    (validateBroadcast f = .crcFailure ↔ lengthOk ∧ tcodeOk ∧ ¬ crcOk) ∧
    (validateBroadcast f = .valid ↔ lengthOk ∧ tcodeOk ∧ crcOk) ∧
    validateBroadcast f ≠ .nodeMismatch ∧ validateBroadcast f ≠ .labelMismatch)

/-- R87, R88, R91, R170: a response the codec itself builds for node `s` and label `t` is `Valid` to whoever expects
that node and label, whatever its destination id and response code; another node is a node mismatch and another label
a label mismatch. -/
def Obligations.EncodedResponsesValidate : Prop :=
  ∀ (dst : BitVec 16) (s node : NodeNum) (t label : Label) (v : Quadlet) (rc : BitVec 4) (data : List Byte),
    data.length ≤ 65535 →
    validateResponse (encQresp dst s t v rc) node 0x6 label 4 =
      (if s ≠ node then .nodeMismatch else if t ≠ label then .labelMismatch else .valid) ∧
    validateResponse (encBresp dst s t data rc) node 0x7 label data.length =
      (if s ≠ node then .nodeMismatch else if t ≠ label then .labelMismatch else .valid)

/-- R92, R93, R94: the control word, the split of a received string, the trailer's fields and times. -/
def Obligations.EthernetFraming : Prop :=
  (∀ (nf : Bool) (g : BitVec 8) (f : List Byte),
    makeCtrl nf g = [if nf then 0x01 else 0x00, g] ∧ parseCtrl (makeCtrl nf g) = (nf, g) ∧
    ethWrap nf g f = makeCtrl nf g ++ f) ∧
  (∀ c0 c1 : Byte, parseCtrl [c0, c1] = (c0.getLsbD 0, c1)) ∧
  (∀ rx : List Byte, rx.length < 8 → ethSplit rx = none) ∧
  (∀ f tr : List Byte, tr.length = 8 → ethSplit (f ++ tr) = some (f, tr)) ∧
  (∀ t0 t1 t2 t3 t4 t5 t6 t7 : Byte,
    let d := decodeExtraTrailer [t0, t1, t2, t3, t4, t5, t6, t7]
    d.flags = t0 ∧ d.gen = t1 ∧ d.aux = t2 ++ t3 ∧ d.recvTicks = t4 ++ t5 ∧ d.totalTicks = t6 ++ t7 ∧
    d.recvTime = ((t4 ++ t5 : BitVec 16).toNat : Rat) / 49152000 ∧
    d.totalTime = ((t6 ++ t7 : BitVec 16).toNat : Rat) / 49152000)

/-- What the codec answers for a frame of each kind, in every state; no register changes.  That a presented frame is
answered so is the model's own interface (log entry 6); what is answered is R81, R83 to R89. -/
def Obligations.CodecAnswersEveryFrameKind : Prop :=
  (∀ (s : State) (h : ReqHdr) (data crc : Quadlet),
    exec (.qwrite h data crc) s = .next { s with out := s.out ++ [.codec
      { header := decodeHeader (encode (.qwrite h data crc))
        headerCrcOk := some (checkCrc (encode (.qwrite h data crc)))
        dataCrcOk := none
        rebuilt := some (encQwrite (nodeOfId h.dest) h.addr h.tl data) }] }) ∧
  (∀ (s : State) (h : ReqHdr) (crc : Quadlet),
    exec (.qread h crc) s = .next { s with out := s.out ++ [.codec
      { header := decodeHeader (encode (.qread h crc))
        headerCrcOk := some (checkCrc (encode (.qread h crc)))
        dataCrcOk := none
        rebuilt := some (encQread (nodeOfId h.dest) h.addr h.tl) }] }) ∧
  (∀ (s : State) (h : ReqHdr) (len ext : BitVec 16) (crc : Quadlet),
    exec (.bread h len ext crc) s = .next { s with out := s.out ++ [.codec
      { header := decodeHeader (encode (.bread h len ext crc))
        headerCrcOk := some (checkCrc (encode (.bread h len ext crc)))
        dataCrcOk := none
        rebuilt := some (encBread (nodeOfId h.dest) h.addr h.tl len) }] }) ∧
  (∀ (s : State) (h : RespHdr) (data crc : Quadlet),
    exec (.qresp h data crc) s = .next { s with out := s.out ++ [.codec
      { header := decodeHeader (encode (.qresp h data crc))
        headerCrcOk := some (checkCrc (encode (.qresp h data crc)))
        dataCrcOk := none
        rebuilt := some (encQresp h.dest (nodeOfId h.src) h.tl data h.rcode) }] }) ∧
  (∀ (s : State) (h : ReqHdr) (len ext : BitVec 16) (crc : Quadlet) (tail : List Byte),
    exec (.bwrite h len ext crc tail) s = .next { s with out := s.out ++ [.codec
      { header := decodeHeader (encode (.bwrite h len ext crc tail))
        headerCrcOk := some (checkCrc ((encode (.bwrite h len ext crc tail)).take 20))
        dataCrcOk := none
        rebuilt := if len.toNat ≤ tail.length
          then some (encBwrite (nodeOfId h.dest) h.addr h.tl (tail.take len.toNat)) else none }] }) ∧
  (∀ (s : State) (h : RespHdr) (len ext : BitVec 16) (crc : Quadlet) (tail : List Byte),
    exec (.bresp h len ext crc tail) s = .next { s with out := s.out ++ [.codec
      { header := decodeHeader (encode (.bresp h len ext crc tail))
        headerCrcOk := some (checkCrc ((encode (.bresp h len ext crc tail)).take 20))
        dataCrcOk := if len.toNat + 4 ≤ tail.length then some (checkCrc (tail.take (len.toNat + 4))) else none
        rebuilt := if len.toNat ≤ tail.length
          then some (encBresp h.dest (nodeOfId h.src) h.tl (tail.take len.toNat) h.rcode) else none }] })

/-- A frame the codec's encoders built, presented to the codec, is decoded as its kind, has a good header CRC and, for
a block response, a good data CRC, and is rebuilt byte for byte; no register changes (R83 to R90).  The other five kinds
have no data CRC; that a block write has none is the default of `BWRITE_DATA_CRC` (log entry 13).  The interface is the
model's own (log entry 6). -/
def Obligations.EncodedFramesAreRebuilt : Prop :=
  ∀ (st : State) (n s : NodeNum) (a : Addr) (t : Label) (v : Quadlet) (len : BitVec 16) (data : List Byte)
    (dst : BitVec 16) (rc : BitVec 4) (f : List Byte) (kind : FrameKind) (dataCrc : Option Bool),
    data.length ≤ 65535 →
    (f, kind, dataCrc) ∈ [(encQread n a t, FrameKind.qread, none), (encQwrite n a t v, .qwrite, none),
      (encBread n a t len, .bread, none), (encBwrite n a t data, .bwrite, none),
      (encQresp dst s t v rc, .qresp, none), (encBresp dst s t data rc, .bresp, some true)] →
    ∃ (i : Instr) (r : CodecReport), decode .codec f = .ok i ∧ encode i = f ∧
      exec i st = .next { st with out := st.out ++ [.codec r] } ∧
      r.header.map HeaderRecord.kind = some kind ∧ r.headerCrcOk = some true ∧ r.dataCrcOk = dataCrc ∧
      r.rebuilt = some f

/-! ## The board-to-node mapper -/

/-- R97.  That the command faults with `countOverflow` where R97 (iv) gives it no step, after the checks of steps 1
and 2, is the model's reading (log entry 10). -/
def Obligations.AddBoardRegistersAndCounts : Prop :=
  ∀ (s : State) (b : Byte) (fw : Quadlet) (cap : Bool),
    (s.phase ≠ .idle → Answers (.addBoard b fw cap) s .busy) ∧
    (s.phase = .idle →
      (16 ≤ b.toNat → Answers (.addBoard b fw cap) s .outOfRange) ∧
      (∀ bid : BoardId, b.toNat = bid.val →
        (s.portState = .closed → Answers (.addBoard b fw cap) s .notOperational) ∧
        (s.portState ≠ .closed → s.numBoards = 0xFFFFFFFF → exec (.addBoard b fw cap) s = .fault .countOverflow) ∧
        (s.portState ≠ .closed → s.numBoards ≠ 0xFFFFFFFF →
          exec (.addBoard b fw cap) s = .next { s with
            slots := s.slots.set bid.val
              { present := true, fwVersion := fw, bcCapable := cap, node := (s.slot bid).node } bid.isLt
            inUseMask := s.inUseMask ||| BitVec.twoPow 16 bid.val
            numBoards := s.numBoards + 1
            out := s.out ++ [.result .ok] })))

/-- R98; the node the board held is freed in both maps, and the count cannot underflow while it covers the registered
boards, as it does in every state a run reaches. -/
def Obligations.RemoveBoardClearsTheSlot : Prop :=
  ∀ (s : State) (b : Byte),
    (s.phase ≠ .idle → Answers (.removeBoard b) s .busy) ∧
    (s.phase = .idle →
      (16 ≤ b.toNat → Answers (.removeBoard b) s .outOfRange) ∧
      (∀ bid : BoardId, b.toNat = bid.val →
        ((s.slot bid).present = false → Answers (.removeBoard b) s .notFound) ∧
        ((s.slot bid).present = true → s.portState = .closed → Answers (.removeBoard b) s .notOperational) ∧
        ((s.slot bid).present = true → s.portState ≠ .closed →
          exec (.removeBoard b) s = .next { s with
            slots := s.slots.set bid.val { s.slot bid with present := false, node := none } bid.isLt
            node2board := match (s.slot bid).node with
              | some n => s.node2board.set n.val none n.isLt
              | none => s.node2board
            inUseMask := s.inUseMask &&& ~~~ BitVec.twoPow 16 bid.val
            numBoards := s.numBoards - 1
            out := s.out ++ [.result .ok] }) ∧
        ((s.slot bid).present = true → CountCovers s → (s.numBoards - 1).toNat + 1 = s.numBoards.toNat)))

/-- R98 (iv), C8: `ADD_BOARD` to an empty slot without a node, then `REMOVE_BOARD` of it, gives back the in-use mask,
the count and the node map. -/
def Obligations.RemoveUndoesAddToAnEmptySlot : Prop :=
  ∀ (s : State) (b : BoardId) (fw : Quadlet) (cap : Bool), TableInvariants s → s.phase = .idle →
    s.portState ≠ .closed → s.numBoards ≠ 0xFFFFFFFF → (s.slot b).present = false →
    ∃ t u, exec (.addBoard (BitVec.ofNat 8 b.val) fw cap) s = .next t ∧
      exec (.removeBoard (BitVec.ofNat 8 b.val)) t = .next u ∧
      u.inUseMask = s.inUseMask ∧ u.numBoards = s.numBoards ∧ u.node2board = s.node2board ∧
      (∀ c, (u.slot c).present = (s.slot c).present ∧ (u.slot c).node = (s.slot c).node) ∧
      u = { s with slots := u.slots, out := s.out ++ [.result .ok] ++ [.result .ok] }

/-- R99: the checks in order, and the newest assignment wins: the board's old node is freed, a previous holder of the
node loses it, no other entry of either map changes and nothing else of a slot does.  The maps are assumed inverse
(R22 I2), as they are in every state a run reaches. -/
def Obligations.MapNodeNewestAssignmentWins : Prop :=
  ∀ (s : State) (b n : Byte),
    (s.phase ≠ .idle → Answers (.mapNode b n) s .busy) ∧
    (s.phase = .idle →
      (16 ≤ b.toNat → Answers (.mapNode b n) s .outOfRange) ∧
      (∀ bid : BoardId, b.toNat = bid.val →
        ((s.slot bid).present = false → Answers (.mapNode b n) s .notFound) ∧
        ((s.slot bid).present = true → 63 ≤ n.toNat → Answers (.mapNode b n) s .outOfRange) ∧
        (∀ nid : NodeId, n.toNat = nid.val → (s.slot bid).present = true →
          (s.portState = .closed → Answers (.mapNode b n) s .notOperational) ∧
          (s.portState ≠ .closed → MapsInverse s →
            ∃ t, exec (.mapNode b n) s = .next t ∧
              t = { s with slots := t.slots, node2board := t.node2board, out := s.out ++ [.result .ok] } ∧
              (∀ c, t.slot c = { s.slot c with node :=
                (if c = bid then some nid else if (s.slot c).node = some nid then none else (s.slot c).node) }) ∧
              (∀ m, t.boardAt m =
                if m = nid then some bid else if s.boardAt m = some bid then none else s.boardAt m)))))

/-- R100. -/
def Obligations.UnmapNodeFreesTheNode : Prop :=
  ∀ (s : State) (b : Byte),
    (s.phase ≠ .idle → Answers (.unmapNode b) s .busy) ∧
    (s.phase = .idle →
      (16 ≤ b.toNat → Answers (.unmapNode b) s .outOfRange) ∧
      (∀ bid : BoardId, b.toNat = bid.val →
        ((s.slot bid).present = false → Answers (.unmapNode b) s .notFound) ∧
        ((s.slot bid).present = true → s.portState = .closed → Answers (.unmapNode b) s .notOperational) ∧
        ((s.slot bid).present = true → s.portState ≠ .closed →
          exec (.unmapNode b) s = .next { s with
            slots := s.slots.set bid.val { s.slot bid with node := none } bid.isLt
            node2board := match (s.slot bid).node with
              | some n => s.node2board.set n.val none n.isLt
              | none => s.node2board
            out := s.out ++ [.result .ok] })))

/-- R103: the checks in order, then the exists bit; where the tables' invariant R22 (I1) holds, that is the bit of
`in_use_mask` too. -/
def Obligations.BoardExistsAnswersTheSlot : Prop :=
  ∀ (s : State) (b : Byte),
    (s.phase ≠ .idle → Answers (.boardExists b) s .busy) ∧
    (s.phase = .idle →
      (16 ≤ b.toNat → Answers (.boardExists b) s .outOfRange) ∧
      (∀ bid : BoardId, b.toNat = bid.val →
        (s.portState = .closed → Answers (.boardExists b) s .notOperational) ∧
        (s.portState ≠ .closed → Answers (.boardExists b) s (.okBool (s.slot bid).present)) ∧
        (s.portState ≠ .closed → MaskMatches s →
          Answers (.boardExists b) s (.okBool (s.inUseMask.getLsbD bid.val)))))

/-- R104: the checks in order, then the slot's `fw_version`. -/
def Obligations.FwVersionAnswersTheLatchedVersion : Prop :=
  ∀ (s : State) (b : Byte),
    (s.phase ≠ .idle → Answers (.fwVersion b) s .busy) ∧
    (s.phase = .idle →
      (16 ≤ b.toNat → Answers (.fwVersion b) s .outOfRange) ∧
      (∀ bid : BoardId, b.toNat = bid.val →
        ((s.slot bid).present = false → Answers (.fwVersion b) s .notFound) ∧
        ((s.slot bid).present = true → s.portState = .closed → Answers (.fwVersion b) s .notOperational) ∧
        ((s.slot bid).present = true → s.portState ≠ .closed →
          Answers (.fwVersion b) s (.okValue (.num (s.slot bid).fwVersion.toNat)))))

/-- R105, R101: the node or the sentinel 63; a stale map is revalidated first while the port is `Operational`, and
answered from as it is otherwise.  The fields of the held record that R101 does not give are `none` (log entry 15). -/
def Obligations.NodeForBoardAnswersOrRevalidates : Prop :=
  ∀ (s : State) (b : Byte),
    (s.phase ≠ .idle → Answers (.nodeForBoard b) s .busy) ∧
    (s.phase = .idle → s.inflight = none →
      (16 ≤ b.toNat → Answers (.nodeForBoard b) s .outOfRange) ∧
      (∀ bid : BoardId, b.toNat = bid.val →
        (s.portState = .closed → Answers (.nodeForBoard b) s .notOperational) ∧
        (s.portState ≠ .closed → ¬ (s.staleMap = true ∧ s.portState = .operational) →
          (∀ n : NodeId, (s.slot bid).node = some n → Answers (.nodeForBoard b) s (.okValue (.num n.val))) ∧
          ((s.slot bid).node = none → Answers (.nodeForBoard b) s (.okValue (.num 63)))) ∧
        (s.staleMap = true → s.portState = .operational →
          exec (.nodeForBoard b) s = .next { s with
            staleMap := false
            inflight := some { cmd := .nfb bid, node := none, expTcode := none, expTl := none, expLen := none }
            phase := .waitReval
            out := s.out ++ [.revalidate] })))

/-- R106, R101: the board or the sentinel 16; a node number out of range has the sentinel.  The fields of the held
record that R101 does not give are `none` (log entry 15). -/
def Obligations.BoardForNodeAnswersOrRevalidates : Prop :=
  ∀ (s : State) (n : Byte),
    (s.phase ≠ .idle → Answers (.boardForNode n) s .busy) ∧
    (s.phase = .idle → s.inflight = none →
      (s.portState = .closed → Answers (.boardForNode n) s .notOperational) ∧
      (s.portState ≠ .closed → 63 ≤ n.toNat → Answers (.boardForNode n) s (.okValue (.num 16))) ∧
      (∀ nid : NodeId, n.toNat = nid.val → s.portState ≠ .closed →
        (¬ (s.staleMap = true ∧ s.portState = .operational) →
          (∀ b : BoardId, s.boardAt nid = some b → Answers (.boardForNode n) s (.okValue (.num b.val))) ∧
          (s.boardAt nid = none → Answers (.boardForNode n) s (.okValue (.num 16)))) ∧
        (s.staleMap = true → s.portState = .operational →
          exec (.boardForNode n) s = .next { s with
            staleMap := false
            inflight := some { cmd := .bfn nid, node := none, expTcode := none, expTl := none, expLen := none }
            phase := .waitReval
            out := s.out ++ [.revalidate] })))

/-- R107: the AND over every registered board; with no board registered it is 1. -/
def Obligations.BcCapableAllIsTheAndOverRegisteredBoards : Prop :=
  ∀ s : State,
    (s.phase ≠ .idle → Answers .bcCapableAll s .busy) ∧
    (s.phase = .idle →
      (s.portState = .closed → Answers .bcCapableAll s .notOperational) ∧
      (s.portState ≠ .closed → (∀ b, (s.slot b).present = true → (s.slot b).bcCapable = true) →
        Answers .bcCapableAll s (.okBool true)) ∧
      (s.portState ≠ .closed → ∀ b, (s.slot b).present = true → (s.slot b).bcCapable = false →
        Answers .bcCapableAll s (.okBool false)))

/-- R108: mode 3 is refused, `SEQ_RW` always accepted, a broadcast mode accepted exactly when every registered board
is capable; a refusal changes nothing. -/
def Obligations.SetProtocolKeepsTheCapabilityInvariant : Prop :=
  ∀ s : State,
    (s.phase ≠ .idle → ∀ m, Answers (.setProtocol m) s .busy) ∧
    (s.phase = .idle →
      Answers (.setProtocol 3) s .refusedProtocol ∧
      (∀ m : BitVec 2, m ≠ 3 → s.portState = .closed → Answers (.setProtocol m) s .notOperational) ∧
      (s.portState ≠ .closed →
        exec (.setProtocol 0) s = .next { s with mode := .seqRw, out := s.out ++ [.result .ok] } ∧
        ((∀ b, (s.slot b).present = true → (s.slot b).bcCapable = true) →
          exec (.setProtocol 1) s = .next { s with mode := .seqRBcW, out := s.out ++ [.result .ok] } ∧
          exec (.setProtocol 2) s = .next { s with mode := .bcQrw, out := s.out ++ [.result .ok] }) ∧
        (∀ b, (s.slot b).present = true → (s.slot b).bcCapable = false →
          Answers (.setProtocol 1) s .refusedProtocol ∧ Answers (.setProtocol 2) s .refusedProtocol)))

/-- R102 steps 1 and 2: the map a revalidation answer installs.  A registered board gets the node the answer gives
it, if that is a node id and no lower registered board is given the same; every other board gets none, and the node
map is the inverse.  Existence, firmware version and capability are untouched. -/
def Obligations.RevalidationInstallsAnInjectiveMap : Prop :=
  ∀ (s : State) (m : RevalMap),
    (∀ (b : BoardId) (n : NodeId), ((s.installMap m).slot b).node = some n ↔
      (s.slot b).present = true ∧ m[b] = some (BitVec.ofNat 8 n.val) ∧
      ∀ c : BoardId, c < b → (s.slot c).present = true → m[c] ≠ some (BitVec.ofNat 8 n.val)) ∧
    (∀ (b : BoardId) (n : NodeId), (s.installMap m).boardAt n = some b ↔
      ((s.installMap m).slot b).node = some n) ∧
    (∀ b : BoardId, ((s.installMap m).slot b).present = (s.slot b).present ∧
      ((s.installMap m).slot b).fwVersion = (s.slot b).fwVersion ∧
      ((s.installMap m).slot b).bcCapable = (s.slot b).bcCapable) ∧
    s.installMap m = { s with slots := (s.installMap m).slots, node2board := (s.installMap m).node2board }

/-- R102 step 3: with the map installed, a bus reset that came meanwhile asks again; else the command resumes after
its lookup: a node lookup answers from the new map, a unicast command sends to the board's new node with the next
label, or reports `NotFound` with a `NoNode` entry.  `exp_tcode` and `exp_len` of a resumed write, which R119 and R121 do
not give, are `none` (log entry 15). -/
def Obligations.RevalDoneResumesOrAsksAgain : Prop :=
  ∀ (s : State) (m : RevalMap) (f : Inflight), s.phase = .waitReval → s.inflight = some f →
    (s.staleMap = true → exec (.revalDone m) s = .next { s with
      slots := (s.installMap m).slots
      node2board := (s.installMap m).node2board
      staleMap := false
      out := s.out ++ [.revalidate] }) ∧
    (s.staleMap = false →
      (∀ b, f.cmd = .nfb b → exec (.revalDone m) s = .next { s with
        slots := (s.installMap m).slots
        node2board := (s.installMap m).node2board
        inflight := none
        phase := .idle
        out := s.out ++ [.result (.okValue (.num (match ((s.installMap m).slot b).node with
          | some n => n.val
          | none => 63)))] }) ∧
      (∀ n, f.cmd = .bfn n → exec (.revalDone m) s = .next { s with
        slots := (s.installMap m).slots
        node2board := (s.installMap m).node2board
        inflight := none
        phase := .idle
        out := s.out ++ [.result (.okValue (.num (match (s.installMap m).boardAt n with
          | some b => b.val
          | none => 16)))] }) ∧
      (∀ b, f.cmd.unicastBoard = some b →
        (((s.installMap m).slot b).node = none → exec (.revalDone m) s = .next { s with
          slots := (s.installMap m).slots
          node2board := (s.installMap m).node2board
          inflight := none
          phase := .idle
          diagLog := s.diagLog ++ [{ reason := .noNode, op := f.cmd.op, board := some b, tl := some s.tl }]
          out := s.out ++ [.diag { reason := .noNode, op := f.cmd.op, board := some b, tl := some s.tl }]
            ++ [.result .notFound] }) ∧
        (∀ n, ((s.installMap m).slot b).node = some n → exec (.revalDone m) s = .next { s with
          slots := (s.installMap m).slots
          node2board := (s.installMap m).node2board
          tl := s.tl + 1
          inflight := some { cmd := f.cmd, node := some (BitVec.ofNat 6 n.val), expTcode := f.cmd.expTcode,
                             expTl := some s.tl, expLen := f.cmd.expLen }
          phase := .waitSend
          out := s.out ++ [.send ([bitByte s.noForward, s.busGen] ++
            f.cmd.frame (BitVec.ofNat 6 n.val) s.tl s.inUseMask)] })))

/-! ## Life cycle and configuration -/

/-- R112. -/
def Obligations.InitFollowsThePortState : Prop :=
  ∀ (s : State) (r : Bool),
    (s.phase ≠ .idle → Answers (.init r) s .busy) ∧
    (s.phase = .idle →
      (s.portState = .closed → Answers (.init r) s .notOperational) ∧
      (s.portState = .faulted → Answers (.init r) s .transportFailure) ∧
      (s.portState = .operational → Answers (.init r) s .ok) ∧
      (s.portState = .constructed →
        exec (.init true) s = .next { s with portState := .operational, out := s.out ++ [.result .ok] } ∧
        Answers (.init false) s .transportFailure))

/-- R113, R114, R115: `SHUTDOWN` in every port state; `SET_TIMEOUT` and `SET_NO_FORWARD` in every one but `Closed`, with
no value refused. -/
def Obligations.ShutdownAndConfigurationWrites : Prop :=
  ∀ (s : State) (d : Duration) (f : Bool),
    (s.phase ≠ .idle →
      Answers .shutdown s .busy ∧ Answers (.setTimeout d) s .busy ∧ Answers (.setNoForward f) s .busy) ∧
    (s.phase = .idle →
      exec .shutdown s = .next { s with portState := .closed, out := s.out ++ [.result .ok] } ∧
      (s.portState = .closed →
        Answers (.setTimeout d) s .notOperational ∧ Answers (.setNoForward f) s .notOperational) ∧
      (s.portState ≠ .closed →
        exec (.setTimeout d) s = .next { s with rxTimeout := d, out := s.out ++ [.result .ok] } ∧
        exec (.setNoForward f) s = .next { s with noForward := f, out := s.out ++ [.result .ok] }))

/-- R116, R117: the two read-outs, in every port state; they change nothing; and the two times in seconds. -/
def Obligations.StatusAndTimingReadOut : Prop :=
  ∀ s : State,
    (s.phase ≠ .idle → Answers .getStatus s .busy ∧ Answers .getTiming s .busy) ∧
    (s.phase = .idle →
      Answers .getStatus s (.okValue (.status
        { portState := s.portState, mode := s.mode, busGen := s.busGen, staleMap := s.staleMap,
          inUseMask := s.inUseMask, numBoards := s.numBoards, tl := s.tl, bcSeq := s.bcSeq,
          noForward := s.noForward })) ∧
      Answers .getTiming s (.okValue (.timing
        { recvTicks := s.recvTicks, totalTicks := s.totalTicks, trailerFlags := s.trailerFlags,
          trailerAux := s.trailerAux }))) ∧
    s.fpgaRecvTime = (s.recvTicks.toNat : Rat) / 49152000 ∧ s.fpgaTotalTime = (s.totalTicks.toNat : Rat) / 49152000

/-! ## Unicast commands -/

/-- R109 P1 to P4, R150: the checks of the four unicast commands, in order; none of them changes anything. -/
def Obligations.UnicastChecksInOrder : Prop :=
  ∀ (s : State) (i : Instr) (b : Byte) (len : Option Nat), i.unicast = some (b, len) → s.phase = .idle →
    (16 ≤ b.toNat → Answers i s .outOfRange) ∧
    (∀ bid : BoardId, b.toNat = bid.val →
      ((s.slot bid).present = false → Answers i s .notFound) ∧
      ((s.slot bid).present = true →
        (∀ l, len = some l → (l = 0 ∨ l % 4 ≠ 0 ∨ 65532 < l) → Answers i s .invalidLength) ∧
        ((∀ l, len = some l → 0 < l ∧ l % 4 = 0 ∧ l ≤ 65532) →
          (s.portState = .faulted → Answers i s .transportFailure) ∧
          (s.portState = .constructed ∨ s.portState = .closed → Answers i s .notOperational))))

/-- R109 P5, P6, R101: past its checks, a unicast command whose map is stale asks for a revalidation and is held; one
whose board has no node reports `NotFound` with a `NoNode` entry, and no label is allocated.  The fields of the held
record that R101 does not give are `none` (log entry 15). -/
def Obligations.UnicastLookup : Prop :=
  ∀ (s : State) (i : Instr) (b : Byte) (bid : BoardId) (p : Pending) (len : Option Nat),
    i.unicast = some (b, len) → b.toNat = bid.val → i.pending bid = some p → s.phase = .idle → s.inflight = none →
    (s.slot bid).present = true → (∀ l, len = some l → 0 < l ∧ l % 4 = 0 ∧ l ≤ 65532) → s.portState = .operational →
    (s.staleMap = true → exec i s = .next { s with
      staleMap := false
      inflight := some { cmd := p, node := none, expTcode := none, expTl := none, expLen := none }
      phase := .waitReval
      out := s.out ++ [.revalidate] }) ∧
    (s.staleMap = false → (s.slot bid).node = none → exec i s = .next { s with
      diagLog := s.diagLog ++ [{ reason := .noNode, op := p.op, board := some bid, tl := some s.tl }]
      out := s.out ++ [.diag { reason := .noNode, op := p.op, board := some bid, tl := some s.tl }]
        ++ [.result .notFound] })

/-- R118, R119, R120, R121: a unicast command to a registered board with a node sends exactly one frame, the one of its
kind to that node with the label `tl`, behind the control word; `tl` goes up by one modulo 64.  `exp_tcode` and
`exp_len` of a write, which R119 and R121 do not give, are `none` (log entry 15). -/
def Obligations.UnicastSendsItsFrame : Prop :=
  ∀ (s : State) (b : Byte) (bid : BoardId) (n : NodeId) (a : Addr), b.toNat = bid.val → s.phase = .idle →
    s.portState = .operational → s.staleMap = false → (s.slot bid).present = true → (s.slot bid).node = some n →
    exec (.readQuadlet b a) s = .next { s with
      tl := s.tl + 1
      inflight := some { cmd := .rq bid a, node := some (BitVec.ofNat 6 n.val), expTcode := some 0x6,
                         expTl := some s.tl, expLen := some 4 }
      phase := .waitSend
      out := s.out ++ [.send ([bitByte s.noForward, s.busGen] ++ encQread (BitVec.ofNat 6 n.val) a s.tl)] } ∧
    (∀ v : Quadlet, exec (.writeQuadlet b a v) s = .next { s with
      tl := s.tl + 1
      inflight := some { cmd := .wq bid a v, node := some (BitVec.ofNat 6 n.val), expTcode := none,
                         expTl := some s.tl, expLen := none }
      phase := .waitSend
      out := s.out ++ [.send ([bitByte s.noForward, s.busGen] ++ encQwrite (BitVec.ofNat 6 n.val) a s.tl v)] }) ∧
    (∀ len : BitVec 32, 0 < len.toNat → len.toNat % 4 = 0 → len.toNat ≤ 65532 →
      exec (.readBlock b a len) s = .next { s with
        tl := s.tl + 1
        inflight := some { cmd := .rb bid a len, node := some (BitVec.ofNat 6 n.val), expTcode := some 0x7,
                           expTl := some s.tl, expLen := some len.toNat }
        phase := .waitSend
        out := s.out ++ [.send ([bitByte s.noForward, s.busGen] ++
          encBread (BitVec.ofNat 6 n.val) a s.tl (BitVec.ofNat 16 len.toNat))] }) ∧
    (∀ data : List Byte, 0 < data.length → data.length % 4 = 0 → data.length ≤ 65532 →
      exec (.writeBlock b a data) s = .next { s with
        tl := s.tl + 1
        inflight := some { cmd := .wb bid a data, node := some (BitVec.ofNat 6 n.val), expTcode := none,
                           expTl := some s.tl, expLen := none }
        phase := .waitSend
        out := s.out ++ [.send ([bitByte s.noForward, s.busGen] ++ encBwrite (BitVec.ofNat 6 n.val) a s.tl data)] })

/-- R168: what a unicast command or its resumption sends never goes to the broadcast node: the destination id is
0xFFC0 + n for a node id n below 63. -/
def Obligations.UnicastNeverBroadcasts : Prop :=
  ∀ (s t : State) (i : Instr) (frame : List Byte), exec i s = .next t →
    (i.unicast ≠ none ∨ ∃ m, i = .revalDone m) → t.out = s.out ++ [.send frame] →
    ∃ n : NodeId, q0Dest (quadAt (frame.drop 2) 0) = 0xFFC0 + BitVec.ofNat 16 n.val

/-! ## Broadcast commands -/

/-- R110 B1 to B3, R141 (a): the checks of the four broadcast commands, in order; none of them changes anything. -/
def Obligations.BroadcastChecksInOrder : Prop :=
  ∀ (s : State) (i : Instr) (modes : List Mode) (len : Option Nat), i.broadcast = some (modes, len) →
    s.phase = .idle →
    (s.mode ∉ modes → Answers i s .protocolUnsupported) ∧
    (s.mode ∈ modes →
      (∀ l, len = some l → (l = 0 ∨ l % 4 ≠ 0 ∨ 65532 < l) → Answers i s .invalidLength) ∧
      ((∀ l, len = some l → 0 < l ∧ l % 4 = 0 ∧ l ≤ 65532) →
        (s.portState = .faulted → Answers i s .transportFailure) ∧
        (s.portState = .constructed ∨ s.portState = .closed → Answers i s .notOperational)))

/-- R122, R123, R124, R126: in a mode that allows it and an `Operational` port, a broadcast command sends its one frame
to node 63 with the label `tl`, whatever the tables and `stale_map` hold; `WAIT_BC_READ` sends nothing, allocates no
label and asks for a response.  The fields of the records that R122 to R126 do not give are `none` (log entry 15); the
address 0x1800 and the data word `seq ++ in_use_mask` are the defaults of R10 and R125, in the machine with the default
parameters and functions (log entry 13). -/
def Obligations.BroadcastSendsItsFrame : Prop :=
  ∀ (s : State) (a : Addr), s.phase = .idle → s.portState = .operational →
    (s.mode ≠ .seqRw → ∀ v : Quadlet, exec (.writeBcQuadlet a v) s = .next { s with
      tl := s.tl + 1
      inflight := some { cmd := .bwq a v, node := some 63, expTcode := none, expTl := some s.tl, expLen := none }
      phase := .waitSend
      out := s.out ++ [.send ([bitByte s.noForward, s.busGen] ++ encQwrite 63 a s.tl v)] }) ∧
    (s.mode ≠ .seqRw → ∀ data : List Byte, 0 < data.length → data.length % 4 = 0 → data.length ≤ 65532 →
      exec (.writeBcBlock a data) s = .next { s with
        tl := s.tl + 1
        inflight := some { cmd := .bwb a data, node := some 63, expTcode := none, expTl := some s.tl, expLen := none }
        phase := .waitSend
        out := s.out ++ [.send ([bitByte s.noForward, s.busGen] ++ encBwrite 63 a s.tl data)] }) ∧
    (s.mode = .bcQrw → ∀ seq : BitVec 16, exec (.writeBcReadRequest seq) s = .next { s with
      tl := s.tl + 1
      bcSeq := seq
      inflight := some { cmd := .brr seq, node := some 63, expTcode := none, expTl := some s.tl, expLen := none }
      phase := .waitSend
      out := s.out ++ [.send ([bitByte s.noForward, s.busGen] ++
        encQwrite 63 0x1800 s.tl (seq ++ s.inUseMask))] }) ∧
    (s.mode = .bcQrw → exec .waitBcRead s = .next { s with
      inflight := some { cmd := .wbr, node := none, expTcode := some 0x7, expTl := none, expLen := none }
      phase := .waitRecv
      out := s.out ++ [.receive s.rxTimeout] })

/-! ## Transport events -/

/-- R128: after a failed `send` the port is `Faulted`; after a successful one a write ends `Ok` and a read asks for its
response with `rx_timeout`. -/
def Obligations.SendDoneEndsWritesAndAwaitsReads : Prop :=
  ∀ (s : State) (f : Inflight), s.phase = .waitSend → s.inflight = some f →
    exec (.sendDone .fail) s = .next { s with
      portState := .faulted
      inflight := none
      phase := .idle
      diagLog := s.diagLog ++ [{ reason := .sendFailure, op := f.cmd.op, board := f.cmd.board, tl := f.expTl }]
      out := s.out ++ [.diag { reason := .sendFailure, op := f.cmd.op, board := f.cmd.board, tl := f.expTl }]
        ++ [.result .transportFailure] } ∧
    (f.cmd.op ∈ [.wq, .wb, .bwq, .bwb, .brr] → exec (.sendDone .ok) s = .next { s with
      inflight := none, phase := .idle, out := s.out ++ [.result .ok] }) ∧
    (f.cmd.op ∈ [.rq, .rb] → exec (.sendDone .ok) s = .next { s with
      phase := .waitRecv, out := s.out ++ [.receive s.rxTimeout] })

/-- R129, R144, R145 (b): a timeout ends the command and leaves the port and the label alone; a failed `receive` makes
the port `Faulted`.  Each writes one log entry. -/
def Obligations.ReceiveTimeoutAndFailure : Prop :=
  ∀ (s : State) (f : Inflight), s.phase = .waitRecv → s.inflight = some f →
    exec (.recvDone .timeout) s = .next { s with
      inflight := none
      phase := .idle
      diagLog := s.diagLog ++ [{ reason := .timeout, op := f.cmd.op, board := f.cmd.board, tl := f.expTl }]
      out := s.out ++ [.diag { reason := .timeout, op := f.cmd.op, board := f.cmd.board, tl := f.expTl }]
        ++ [.result .timeoutError] } ∧
    exec (.recvDone .fail) s = .next { s with
      portState := .faulted
      inflight := none
      phase := .idle
      diagLog := s.diagLog ++ [{ reason := .receiveFailure, op := f.cmd.op, board := f.cmd.board, tl := f.expTl }]
      out := s.out ++ [.diag { reason := .receiveFailure, op := f.cmd.op, board := f.cmd.board, tl := f.expTl }]
        ++ [.result .transportFailure] }

/-- R130 steps 1, 2, R131 steps 1, 2, R143: received bytes that are too short to split, or whose frame does not
validate, end the command with `FrameValidationFailure` and one log entry; nothing else changes, the trailer registers
included.  The reason logged is the one R149 lists for the check that failed. -/
def Obligations.RejectedResponsesChangeNothing : Prop :=
  ∀ (s : State) (f : Inflight) (rx : List Byte) (verdict : Verdict) (reason : Reason), s.phase = .waitRecv →
    s.inflight = some f → s.phase.fits s.inflight = true →
    (verdict, reason) ∈ [(Verdict.lengthMismatch, Reason.lengthMismatch), (.nodeMismatch, .nodeMismatch),
      (.tcodeMismatch, .tcodeMismatch), (.labelMismatch, .labelMismatch), (.crcFailure, .crcFailure)] →
    (rx.length < 8 ∧ reason = .lengthMismatch) ∨
    (∃ fr tr : List Byte, rx = fr ++ tr ∧ tr.length = 8 ∧
      ((f.cmd = .wbr ∧ validateBroadcast fr = verdict) ∨
       (∃ node tcode label len, f.node = some node ∧ f.expTcode = some tcode ∧ f.expTl = some label ∧
          f.expLen = some len ∧ validateResponse fr node tcode label len = verdict))) →
    exec (.recvDone (.bytes rx)) s = .next { s with
      inflight := none
      phase := .idle
      diagLog := s.diagLog ++ [{ reason := reason, op := f.cmd.op, board := f.cmd.board, tl := f.expTl }]
      out := s.out ++ [.diag { reason := reason, op := f.cmd.op, board := f.cmd.board, tl := f.expTl }]
        ++ [.result .frameValidationFailure] }

/-- R130 step 4, R131 step 4, R132, R134: a validated response whose trailer carries another generation than `bus_gen`
runs the bus-reset action with the board's generation; the trailer registers take its trailer, no data is delivered. -/
def Obligations.GenerationMismatchDiscardsTheData : Prop :=
  ∀ (s : State) (f : Inflight) (fr : List Byte) (t0 g t2 t3 t4 t5 t6 t7 : Byte), s.phase = .waitRecv →
    s.inflight = some f → s.phase.fits s.inflight = true → g ≠ s.busGen →
    (f.cmd = .wbr ∧ validateBroadcast fr = .valid) ∨
    (∃ node tcode label len, f.node = some node ∧ f.expTcode = some tcode ∧ f.expTl = some label ∧
      f.expLen = some len ∧ validateResponse fr node tcode label len = .valid) →
    exec (.recvDone (.bytes (fr ++ [t0, g, t2, t3, t4, t5, t6, t7]))) s = .next { s with
      trailerFlags := t0
      trailerAux := t2 ++ t3
      recvTicks := t4 ++ t5
      totalTicks := t6 ++ t7
      busGen := g
      staleMap := true
      inflight := none
      phase := .idle
      diagLog := s.diagLog ++ [{ reason := .genMismatch, op := f.cmd.op, board := f.cmd.board, tl := f.expTl }]
      out := s.out ++ [.diag { reason := .genMismatch, op := f.cmd.op, board := f.cmd.board, tl := f.expTl }]
        ++ [.result .frameValidationFailure] }

/-- R130 steps 3 to 6, R132, R133: a validated response of the right generation delivers its data to the unicast read
in flight; the trailer registers take its trailer, and the capability flag of the board that answered is kept, cleared
or set, as the environment draws.  The draw is a free value of `drawCount`, which counts the updates (the model's own
field, log entry 2); that a capability update draws at all is the default `env_draw` (log entry 13). -/
def Obligations.ValidResponseDeliversTheData : Prop :=
  ∀ (s : State) (f : Inflight) (bid : BoardId) (node : NodeNum) (tcode : BitVec 4) (label : Label) (len : Nat)
    (fr : List Byte) (t0 t2 t3 t4 t5 t6 t7 : Byte), s.phase = .waitRecv → s.inflight = some f →
    f.node = some node → f.expTcode = some tcode → f.expTl = some label → f.expLen = some len →
    validateResponse fr node tcode label len = .valid →
    ((∃ a, f.cmd = .rq bid a) ∨ ∃ a l, f.cmd = .rb bid a l) →
    ∃ cap : Bool, exec (.recvDone (.bytes (fr ++ [t0, s.busGen, t2, t3, t4, t5, t6, t7]))) s = .next { s with
      slots := s.slots.set bid.val { s.slot bid with bcCapable := cap } bid.isLt
      trailerFlags := t0
      trailerAux := t2 ++ t3
      recvTicks := t4 ++ t5
      totalTicks := t6 ++ t7
      inflight := none
      phase := .idle
      drawCount := s.drawCount + 1
      out := s.out ++ [.result (if f.cmd.op = .rq then .okQuadlet (quadAt fr 3)
        else .okBytes ((fr.drop 20).take len))] }

/-- R131 steps 3 to 7, R132, R133: a validated broadcast response of the right generation delivers its payload if its
sequence tag is `bc_seq`, and is rejected with `SeqMismatch` if not; either way the trailer registers take its
trailer.  The capability flag of every registered board is drawn, no other slot changes.  `drawCount` counts the update
(the model's own field, log entry 2); that it draws is the default `env_draw`, and the sequence tag is the default
`bc_seq_of` (log entry 13). -/
def Obligations.BroadcastResponseNeedsTheSequenceTag : Prop :=
  ∀ (s : State) (f : Inflight) (fr : List Byte) (t0 t2 t3 t4 t5 t6 t7 : Byte), s.phase = .waitRecv →
    s.inflight = some f → f.cmd = .wbr → validateBroadcast fr = .valid →
    let payload := (fr.drop 20).take (q3Length (quadAt fr 3)).toNat
    let i : Instr := .recvDone (.bytes (fr ++ [t0, s.busGen, t2, t3, t4, t5, t6, t7]))
    ((quadAt payload 0).extractLsb' 16 16 ≠ s.bcSeq → exec i s = .next { s with
      trailerFlags := t0
      trailerAux := t2 ++ t3
      recvTicks := t4 ++ t5
      totalTicks := t6 ++ t7
      inflight := none
      phase := .idle
      diagLog := s.diagLog ++ [{ reason := .seqMismatch, op := .wbr, board := none, tl := f.expTl }]
      out := s.out ++ [.diag { reason := .seqMismatch, op := .wbr, board := none, tl := f.expTl }]
        ++ [.result .frameValidationFailure] }) ∧
    ((quadAt payload 0).extractLsb' 16 16 = s.bcSeq → ∃ t, exec i s = .next t ∧
      (∀ b, ∃ cap : Bool, t.slot b = { s.slot b with bcCapable := cap } ∧
        ((s.slot b).present = false → t.slot b = s.slot b)) ∧
      t = { s with
        slots := t.slots
        trailerFlags := t0
        trailerAux := t2 ++ t3
        recvTicks := t4 ++ t5
        totalTicks := t6 ++ t7
        inflight := none
        phase := .idle
        drawCount := s.drawCount + 1
        out := s.out ++ [.result (.okBytes payload)] })

/-- R133: what a capability update does for each value of `BC_CAP_SOURCE` and each draw: under `env_draw` the flag of
the board, or of each registered board, is kept, cleared or set, and nothing else of the state changes but the model's
own `drawCount`, which counts the update (log entry 2); under `handle_only` nothing is done.  That the machine's updates
are those of `env_draw` is the default (log entry 13). -/
def Obligations.CapabilityUpdateFollowsTheDraw : Prop :=
  ∀ (s : State) (b c : BoardId) (draw : BoardId → Config.CapDraw),
    ((s.capUpdateWith .envDraw draw b).slot c =
      if c = b then { s.slot b with bcCapable := match draw b with
        | .keep => (s.slot b).bcCapable
        | .clear => false
        | .set => true }
      else s.slot c) ∧
    ((s.capUpdateAllWith .envDraw draw).slot c =
      if (s.slot c).present = true then { s.slot c with bcCapable := match draw c with
        | .keep => (s.slot c).bcCapable
        | .clear => false
        | .set => true }
      else s.slot c) ∧
    s.capUpdateWith .envDraw draw b =
      { s with slots := (s.capUpdateWith .envDraw draw b).slots, drawCount := s.drawCount + 1 } ∧
    s.capUpdateAllWith .envDraw draw =
      { s with slots := (s.capUpdateAllWith .envDraw draw).slots, drawCount := s.drawCount + 1 } ∧
    s.capUpdateWith .handleOnly draw b = s ∧ s.capUpdateAllWith .handleOnly draw = s

/-- R134: the event writes `bus_gen` modulo 256 and sets `stale_map`, in every phase; in `Closed` it is ignored. -/
def Obligations.BusResetMarksTheMapStale : Prop :=
  ∀ (s : State) (g : BitVec 32),
    (s.portState = .closed → exec (.busReset g) s = .next s) ∧
    (s.portState ≠ .closed → exec (.busReset g) s = .next { s with
      busGen := BitVec.ofNat 8 (g.toNat % 256), staleMap := true })

/-- R135: an event outside the phase that awaits it changes nothing and produces no result. -/
def Obligations.EventsInTheWrongPhaseAreIgnored : Prop :=
  (∀ (s : State) (r : SendOutcome), s.phase ≠ .waitSend → exec (.sendDone r) s = .next s) ∧
  (∀ (s : State) (r : RecvOutcome), s.phase ≠ .waitRecv → exec (.recvDone r) s = .next s) ∧
  (∀ (s : State) (m : RevalMap), s.phase ≠ .waitReval → exec (.revalDone m) s = .next s)

/-! ## The whole machine -/

/-- R37, R147: any host command while a command is in flight gets `Busy`, and nothing changes. -/
def Obligations.CommandsInFlightMakeBusy : Prop :=
  ∀ (i : Instr) (s : State), i.port = .cmd → s.phase ≠ .idle → Answers i s .busy

/-- R22: the four invariants of the tables hold after reset, and the machine's own invariant with them. -/
def Obligations.ResetMeetsTheInvariant : Prop := TableInvariants State.reset ∧ Inv State.reset

/-- R22: the four invariants of the tables hold at reset, and every step keeps them, from every state that meets
them. -/
def Obligations.StepKeepsTheTableInvariants : Prop :=
  TableInvariants State.reset ∧ ∀ s t : State, TableInvariants s → step s = .next t → TableInvariants t

/-- Every step keeps the machine's invariant: R22's, that `num_boards` covers the registered boards (R98 (i)), that a
command is in flight only in `Operational` (R152), that `inflight` is the record its phase can have (R101, R109, R110,
R126), and that the command in flight has a legal length and a registered board (R48, R56).  The fields of `inflight` no rule
gives are `none` (log entry 15). -/
def Obligations.StepKeepsTheInvariant : Prop :=
  ∀ s t : State, Inv s → step s = .next t → Inv t

/-- From every state that meets the invariant, the one fault is `ADD_BOARD` with the count at its limit (R97 (iv), U6),
and the one refusal is of a message that spells no command or event (R75, U15). -/
def Obligations.TheMachineStopsOnlyWhereTheSpecDoes : Prop :=
  ∀ s : State, Inv s →
    (∀ r, step s = .fault r → r = .countOverflow ∧ s.numBoards = 0xFFFFFFFF ∧ s.phase = .idle ∧
      s.portState ≠ .closed ∧ ∃ bytes rest b fw cap, s.input = .message .cmd bytes :: rest ∧
        decode .cmd bytes = .ok (.addBoard b fw cap)) ∧
    (∀ r, step s = .refused r → ∃ port bytes rest e, s.input = .message port bytes :: rest ∧ port ≠ .codec ∧
      decode port bytes = .error e ∧ r = .undecodable e)

/-- R15, R37: every host command gets exactly one result: a command gives its result at once or leaves the machine
owing it, an event gives a result only by ending what is owed, and nothing else gives one.  R136: once no host command
is left and `phase = IDLE`, the run has ended: whatever event, frame or reset is still presented, it stays ended and no
further result is given.  That a run whose last command a reset discarded, or that has no command, has ended is the
model's choice (log entry 18). -/
def Obligations.EveryCommandGetsExactlyOneResult : Prop :=
  (∀ (i : Instr) (s t : State), Inv s → exec i s = .next t →
    t.results + t.owed = s.results + s.owed + (if i.port = .cmd then 1 else 0)) ∧
  (∀ s t : State, s.runEnded → step s = .next t → t.runEnded ∧ t.results = s.results)

/-- R152: the transitions of `port_state` from a state that meets the invariant: those of the table and no others. -/
def Obligations.PortStateTransitions : Prop :=
  ∀ (i : Instr) (s t : State), Inv s → exec i s = .next t → t.portState ≠ s.portState →
    (s.portState = .constructed ∧ i = .init true ∧ t.portState = .operational) ∨
    (s.portState = .operational ∧ (i = .sendDone .fail ∨ i = .recvDone .fail) ∧ t.portState = .faulted) ∨
    (i = .shutdown ∧ t.portState = .closed)

/-- Each register is written by the instructions its rule names and by no other (R19 to R21, R23 to R31, R33, R34,
R36).  `stale_map` is set only by the bus-reset action, which `BUS_RESET` and a response of another generation run, and
cleared only in a step that puts a revalidation query out (R26). -/
def Obligations.RegistersHaveTheirWritersOnly : Prop :=
  ∀ (i : Instr) (s t : State), exec i s = .next t →
    (t.mode = s.mode ∨ ∃ m, i = .setProtocol m) ∧
    (t.rxTimeout = s.rxTimeout ∨ ∃ d, i = .setTimeout d) ∧
    (t.noForward = s.noForward ∨ ∃ f, i = .setNoForward f) ∧
    (t.bcSeq = s.bcSeq ∨ ∃ q, i = .writeBcReadRequest q) ∧
    ((t.inUseMask = s.inUseMask ∧ t.numBoards = s.numBoards ∧
        ∀ b, (t.slot b).present = (s.slot b).present ∧ (t.slot b).fwVersion = (s.slot b).fwVersion) ∨
      (∃ b fw cap, i = .addBoard b fw cap) ∨ ∃ b, i = .removeBoard b) ∧
    ((∀ b, (t.slot b).bcCapable = (s.slot b).bcCapable) ∨ (∃ b fw cap, i = .addBoard b fw cap) ∨
      ∃ rx, i = .recvDone (.bytes rx)) ∧
    (((∀ b, (t.slot b).node = (s.slot b).node) ∧ ∀ n, t.boardAt n = s.boardAt n) ∨
      (∃ b, i = .removeBoard b) ∨ (∃ b n, i = .mapNode b n) ∨ (∃ b, i = .unmapNode b) ∨ ∃ m, i = .revalDone m) ∧
    (t.busGen = s.busGen ∨ (∃ g, i = .busReset g) ∨ ∃ rx, i = .recvDone (.bytes rx)) ∧
    ((t.recvTicks = s.recvTicks ∧ t.totalTicks = s.totalTicks ∧ t.trailerFlags = s.trailerFlags ∧
        t.trailerAux = s.trailerAux) ∨ ∃ rx, i = .recvDone (.bytes rx)) ∧
    (t.staleMap = s.staleMap ∨
      (t.staleMap = true ∧
        ((∃ g, i = .busReset g) ∨ ((∃ rx, i = .recvDone (.bytes rx)) ∧ t.busGen ≠ s.busGen))) ∨
      (t.staleMap = false ∧ t.phase = .waitReval ∧ t.out = s.out ++ [.revalidate] ∧
        (i.looksUp = true ∨ ∃ m, i = .revalDone m))) ∧
    ((t.phase = s.phase ∧ t.inflight = s.inflight) ∨ i.looksUp = true ∨ i.broadcast ≠ none ∨
      (∃ r, i = .sendDone r) ∨ (∃ r, i = .recvDone r) ∨ ∃ m, i = .revalDone m) ∧
    (t.portState = s.portState ∨ (i = .init true ∧ t.portState = .operational) ∨
      ((i = .sendDone .fail ∨ i = .recvDone .fail) ∧ t.portState = .faulted) ∨
      (i = .shutdown ∧ t.portState = .closed)) ∧
    (t.tl = s.tl ∨ (t.tl = s.tl + 1 ∧ t.phase = .waitSend ∧
      (i.unicast ≠ none ∨ i.broadcast ≠ none ∨ ∃ m, i = .revalDone m))) ∧
    (t.diagLog = s.diagLog ∨ i.unicast ≠ none ∨ (∃ r, i = .sendDone r) ∨ (∃ r, i = .recvDone r) ∨
      ∃ m, i = .revalDone m)

/-- R36, R149: the log is append-only, one instruction adds at most one entry, and each entry goes to `DIAG` in the same
step. -/
def Obligations.LogGrowsByAtMostOneEntry : Prop :=
  ∀ (i : Instr) (s t : State), exec i s = .next t →
    ∃ entries new, t.diagLog = s.diagLog ++ entries ∧ entries.length ≤ 1 ∧ t.out = s.out ++ new ∧
      new.filterMap Output.entry = entries

/-- R111, R53: `tl` goes up by one exactly when the instruction sends a frame, and an instruction sends at most one. -/
def Obligations.OneLabelPerFrame : Prop :=
  ∀ (i : Instr) (s t : State), exec i s = .next t →
    (t.out.countP Output.isSend = s.out.countP Output.isSend ∧ t.tl = s.tl) ∨
    (t.out.countP Output.isSend = s.out.countP Output.isSend + 1 ∧ t.tl = s.tl + 1 ∧ t.phase = .waitSend)

/-- R153, R129: there is no retry: `receive` is called, once, only when the frame of a unicast read in flight went out,
or by `WAIT_BC_READ` in `IDLE`, and an outcome of `receive` always ends the command without sending or receiving
again. -/
def Obligations.NoRetry : Prop :=
  (∀ (i : Instr) (s t : State), exec i s = .next t →
    t.out.countP Output.isReceive ≠ s.out.countP Output.isReceive →
    t.out.countP Output.isReceive = s.out.countP Output.isReceive + 1 ∧
    ((i = .sendDone .ok ∧ s.phase = .waitSend ∧ ∃ f, s.inflight = some f ∧ f.cmd.reads = true) ∨
      (i = .waitBcRead ∧ s.phase = .idle))) ∧
  (∀ (r : RecvOutcome) (s t : State), exec (.recvDone r) s = .next t → s.phase = .waitRecv →
    t.phase = .idle ∧ t.inflight = none ∧ t.out.countP Output.isSend = s.out.countP Output.isSend ∧
    t.out.countP Output.isReceive = s.out.countP Output.isReceive)

/-- R170, R130: no data of a response reaches the host unless the response was received in the wait for it and passed
every check: for a unicast read, length, node, tcode, label and CRC, and the generation is the tracked one. -/
def Obligations.DataIsDeliveredOnlyFromACheckedResponse : Prop :=
  ∀ (i : Instr) (s t : State), exec i s = .next t →
    t.out.countP Output.carriesData ≠ s.out.countP Output.carriesData →
    ∃ f fr tr, i = .recvDone (.bytes (fr ++ tr)) ∧ tr.length = 8 ∧ s.phase = .waitRecv ∧ s.inflight = some f ∧
      byteAt tr 1 = s.busGen ∧
      ((f.cmd = .wbr ∧ validateBroadcast fr = .valid ∧
          bcSeqOf ((fr.drop 20).take (q3Length (quadAt fr 3)).toNat) = some s.bcSeq) ∨
        (f.cmd.reads = true ∧ ∃ node tcode label len, f.node = some node ∧ f.expTcode = some tcode ∧
          f.expTl = some label ∧ f.expLen = some len ∧ validateResponse fr node tcode label len = .valid))

/-- R152, R146: once `Closed`, no instruction changes any register; only the interfaces carry results and codec
answers. -/
def Obligations.ClosedIsFinal : Prop :=
  ∀ (i : Instr) (s t : State), s.portState = .closed → s.phase = .idle → s.inflight = none → exec i s = .next t →
    t = { s with out := t.out }

/-- E7, R118, R128, R130: a whole quadlet read.  The command sends, the transport accepts, and a response built as the
board would build it, for this node and label and with the tracked generation, delivers its data word to the host,
whatever its destination id, response code and data. -/
def Obligations.QuadletReadCycleDeliversTheWord : Prop :=
  ∀ (s : State) (bid : BoardId) (n : NodeId) (a : Addr) (dst : BitVec 16) (rc : BitVec 4) (v : Quadlet)
    (t0 t2 t3 t4 t5 t6 t7 : Byte), s.phase = .idle → s.portState = .operational → s.staleMap = false →
    (s.slot bid).present = true → (s.slot bid).node = some n →
    ∃ t u w, exec (.readQuadlet (BitVec.ofNat 8 bid.val) a) s = .next t ∧ exec (.sendDone .ok) t = .next u ∧
      exec (.recvDone (.bytes (encQresp dst (BitVec.ofNat 6 n.val) s.tl v rc ++
        [t0, s.busGen, t2, t3, t4, t5, t6, t7]))) u = .next w ∧
      w.out = s.out ++ [.send ([bitByte s.noForward, s.busGen] ++ encQread (BitVec.ofNat 6 n.val) a s.tl)] ++
        [.receive s.rxTimeout] ++ [.result (.okQuadlet v)] ∧
      w.phase = .idle ∧ w.tl = s.tl + 1 ∧ w.portState = .operational ∧ w.diagLog = s.diagLog

/-- R120, R128, R130: a whole block read delivers the payload the board answered with, for every legal length. -/
def Obligations.BlockReadCycleDeliversThePayload : Prop :=
  ∀ (s : State) (bid : BoardId) (n : NodeId) (a : Addr) (dst : BitVec 16) (rc : BitVec 4) (data : List Byte)
    (t0 t2 t3 t4 t5 t6 t7 : Byte), s.phase = .idle → s.portState = .operational → s.staleMap = false →
    (s.slot bid).present = true → (s.slot bid).node = some n →
    0 < data.length → data.length % 4 = 0 → data.length ≤ 65532 →
    ∃ t u w, exec (.readBlock (BitVec.ofNat 8 bid.val) a (BitVec.ofNat 32 data.length)) s = .next t ∧
      exec (.sendDone .ok) t = .next u ∧
      exec (.recvDone (.bytes (encBresp dst (BitVec.ofNat 6 n.val) s.tl data rc ++
        [t0, s.busGen, t2, t3, t4, t5, t6, t7]))) u = .next w ∧
      w.out = s.out ++ [.send ([bitByte s.noForward, s.busGen] ++
          encBread (BitVec.ofNat 6 n.val) a s.tl (BitVec.ofNat 16 data.length))] ++
        [.receive s.rxTimeout] ++ [.result (.okBytes data)] ∧
      w.phase = .idle ∧ w.tl = s.tl + 1 ∧ w.portState = .operational ∧ w.diagLog = s.diagLog

/-- R144, R163, E8, E9: after a timeout the port is usable, and the response to the timed-out quadlet read, handed over
by the transport to the next one, is rejected with `LabelMismatch` and changes nothing but the log. -/
def Obligations.LateResponseIsRejected : Prop :=
  ∀ (s : State) (bid : BoardId) (n : NodeId) (a a' : Addr) (dst : BitVec 16) (rc : BitVec 4) (v : Quadlet)
    (tr : List Byte), s.phase = .idle → s.portState = .operational → s.staleMap = false →
    (s.slot bid).present = true → (s.slot bid).node = some n → tr.length = 8 →
    ∃ s1 s2 s3 s4 s5 s6, exec (.readQuadlet (BitVec.ofNat 8 bid.val) a) s = .next s1 ∧
      exec (.sendDone .ok) s1 = .next s2 ∧ exec (.recvDone .timeout) s2 = .next s3 ∧
      exec (.readQuadlet (BitVec.ofNat 8 bid.val) a') s3 = .next s4 ∧ exec (.sendDone .ok) s4 = .next s5 ∧
      exec (.recvDone (.bytes (encQresp dst (BitVec.ofNat 6 n.val) s.tl v rc ++ tr))) s5 = .next s6 ∧
      s6 = { s with
        tl := s.tl + 2
        inflight := none
        diagLog := s.diagLog ++ [{ reason := .timeout, op := .rq, board := some bid, tl := some s.tl }] ++
          [{ reason := .labelMismatch, op := .rq, board := some bid, tl := some (s.tl + 1) }]
        out := s6.out } ∧
      (∃ pre, s6.out = s.out ++ pre ++ [.result .frameValidationFailure] ∧ pre.countP Output.carriesData = 0)
end

