-- ==== Sys2Proof/Laws/Bytes.lean ====
section
/-! SUPPORT. The byte-order and bit-field helpers undo one another: what is written at a place is read back from
it. -/

namespace Sys2Proof.Machine

/-! ### Lengths -/

@[simp] theorem be16_length (v : BitVec 16) : (be16 v).length = 2 := rfl
@[simp] theorem be32_length (v : BitVec 32) : (be32 v).length = 4 := rfl
@[simp] theorem be48_length (v : BitVec 48) : (be48 v).length = 6 := rfl
@[simp] theorem be64_length (v : BitVec 64) : (be64 v).length = 8 := rfl
@[simp] theorem computeCrc_length (bs : List Byte) (c : Config.Functions) : (computeCrc bs c).length = 4 := rfl
@[simp] theorem withCrc_length (h : List Byte) (c : Config.Functions) : (withCrc h c).length = h.length + 4 := by
  simp [withCrc]
@[simp] theorem reqHead_length (t : BitVec 4) (h : ReqHdr) : (reqHead t h).length = 12 := rfl
@[simp] theorem respHead_length (t : BitVec 4) (h : RespHdr) : (respHead t h).length = 12 := rfl

/-! ### Byte order -/

@[simp] theorem fromBe16_be16 (v : BitVec 16) : fromBe16 (v.extractLsb' 8 8) (v.extractLsb' 0 8) = v := by
  apply BitVec.eq_of_getLsbD_eq
  intro i hi
  simp only [fromBe16, BitVec.getLsbD_append, BitVec.getLsbD_extractLsb']
  split
  · simp [*]
  · rw [show 8 + (i - 8) = i by omega]; simp; omega

@[simp] theorem fromBe32_be32 (v : BitVec 32) :
    fromBe32 (v.extractLsb' 24 8) (v.extractLsb' 16 8) (v.extractLsb' 8 8) (v.extractLsb' 0 8) = v := by
  apply BitVec.eq_of_getLsbD_eq
  intro i hi
  simp only [fromBe32, BitVec.getLsbD_append, BitVec.getLsbD_extractLsb']
  split
  · simp [*]
  · split
    · rw [show 8 + (i - 8) = i by omega]; simp; omega
    · split
      · rw [show 16 + (i - 8 - 8) = i by omega]; simp; omega
      · rw [show 24 + (i - 8 - 8 - 8) = i by omega]; simp; omega

@[simp] theorem high_append_low48 (v : BitVec 48) : v.extractLsb' 32 16 ++ v.extractLsb' 0 32 = v := by
  apply BitVec.eq_of_getLsbD_eq
  intro i hi
  simp only [BitVec.getLsbD_append, BitVec.getLsbD_extractLsb']
  split
  · simp [*]
  · rw [show 32 + (i - 32) = i by omega]; simp; omega

@[simp] theorem high_append_low64 (v : BitVec 64) : v.extractLsb' 32 32 ++ v.extractLsb' 0 32 = v := by
  apply BitVec.eq_of_getLsbD_eq
  intro i hi
  simp only [BitVec.getLsbD_append, BitVec.getLsbD_extractLsb']
  split
  · simp [*]
  · rw [show 32 + (i - 32) = i by omega]; simp; omega

/-- A 48-bit operand is read back from its six bytes. -/
theorem be48_bytes (a : Addr) :
    ∃ a5 a4 a3 a2 a1 a0, be48 a = [a5, a4, a3, a2, a1, a0] ∧ fromBe48 a5 a4 a3 a2 a1 a0 = a := by
  refine ⟨_, _, _, _, _, _, rfl, ?_⟩
  simp only [fromBe48, fromBe16_be16, fromBe32_be32, high_append_low48]

/-- A 64-bit operand is read back from its eight bytes. -/
theorem be64_bytes (v : BitVec 64) :
    ∃ a7 a6 a5 a4 a3 a2 a1 a0, be64 v = [a7, a6, a5, a4, a3, a2, a1, a0] ∧
      fromBe64 a7 a6 a5 a4 a3 a2 a1 a0 = v := by
  refine ⟨_, _, _, _, _, _, _, _, rfl, ?_⟩
  simp only [fromBe64, fromBe32_be32, high_append_low64]

/-! ### Bit fields -/

/-- The high part of a concatenation. -/
theorem extract_high {w v : Nat} (x : BitVec w) (y : BitVec v) : (x ++ y).extractLsb' v w = x := by
  apply BitVec.eq_of_getLsbD_eq
  intro i hi
  simp [BitVec.getLsbD_append, hi]

/-- A part inside the high part of a concatenation. -/
theorem extract_above {w v : Nat} (x : BitVec w) (y : BitVec v) (k n : Nat) :
    (x ++ y).extractLsb' (v + k) n = x.extractLsb' k n := by
  apply BitVec.eq_of_getLsbD_eq
  intro i hi
  simp [BitVec.getLsbD_append, Nat.add_assoc]

/-- A part inside the low part of a concatenation. -/
theorem extract_below {w v : Nat} (x : BitVec w) (y : BitVec v) (k n : Nat) (h : k + n ≤ v) :
    (x ++ y).extractLsb' k n = y.extractLsb' k n := by
  apply BitVec.eq_of_getLsbD_eq
  intro i hi
  simp [BitVec.getLsbD_append, hi, show k + i < v by omega]

@[simp] theorem q0Dest_mkQ0 (d : BitVec 16) (t : Label) (r : BitVec 2) (c p : BitVec 4) :
    q0Dest (mkQ0 d t r c p) = d := by
  simp only [q0Dest, mkQ0]
  rw [extract_above (k := 12), extract_above (k := 8), extract_above (k := 6), extract_high]

@[simp] theorem q0Tl_mkQ0 (d : BitVec 16) (t : Label) (r : BitVec 2) (c p : BitVec 4) :
    q0Tl (mkQ0 d t r c p) = t := by
  simp only [q0Tl, mkQ0]
  rw [extract_above (k := 6), extract_above (k := 2), extract_above (k := 0), extract_below _ _ _ _ (by omega),
    BitVec.extractLsb'_eq_self]

@[simp] theorem q0Rt_mkQ0 (d : BitVec 16) (t : Label) (r : BitVec 2) (c p : BitVec 4) :
    q0Rt (mkQ0 d t r c p) = r := by
  simp only [q0Rt, mkQ0]
  rw [extract_above (k := 4), extract_above (k := 0), extract_below _ _ _ _ (by omega), BitVec.extractLsb'_eq_self]

@[simp] theorem q0Tcode_mkQ0 (d : BitVec 16) (t : Label) (r : BitVec 2) (c p : BitVec 4) :
    q0Tcode (mkQ0 d t r c p) = c := by
  simp only [q0Tcode, mkQ0]
  rw [extract_above (k := 0), extract_below _ _ _ _ (by omega), BitVec.extractLsb'_eq_self]

@[simp] theorem q0Pri_mkQ0 (d : BitVec 16) (t : Label) (r : BitVec 2) (c p : BitVec 4) :
    q0Pri (mkQ0 d t r c p) = p := by
  simp only [q0Pri, mkQ0]
  rw [extract_below _ _ _ _ (by omega), BitVec.extractLsb'_eq_self]

@[simp] theorem q1Src_mkReqQ1 (s : BitVec 16) (a : Addr) : q1Src (mkReqQ1 s a) = s := extract_high ..

@[simp] theorem q1OffsetHigh_mkReqQ1 (s : BitVec 16) (a : Addr) :
    q1OffsetHigh (mkReqQ1 s a) = a.extractLsb' 32 16 := by
  simp only [q1OffsetHigh, mkReqQ1]
  rw [extract_below _ _ _ _ (by omega), BitVec.extractLsb'_eq_self]

@[simp] theorem q1Src_mkRespQ1 (s : BitVec 16) (r : BitVec 4) (z : BitVec 12) : q1Src (mkRespQ1 s r z) = s := by
  simp only [q1Src, mkRespQ1]
  rw [extract_above (k := 4), extract_high]

@[simp] theorem q1Rcode_mkRespQ1 (s : BitVec 16) (r : BitVec 4) (z : BitVec 12) : q1Rcode (mkRespQ1 s r z) = r := by
  simp only [q1Rcode, mkRespQ1]
  rw [extract_above (k := 0), extract_below _ _ _ _ (by omega), BitVec.extractLsb'_eq_self]

@[simp] theorem q1Res_mkRespQ1 (s : BitVec 16) (r : BitVec 4) (z : BitVec 12) : q1Res (mkRespQ1 s r z) = z := by
  simp only [q1Res, mkRespQ1]
  rw [extract_below _ _ _ _ (by omega), BitVec.extractLsb'_eq_self]

/-- The node of a source id, read from quadlet 1 of a response. -/
@[simp] theorem q1SrcNode_mkRespQ1 (s : BitVec 16) (r : BitVec 4) (z : BitVec 12) :
    q1SrcNode (mkRespQ1 s r z) = nodeOfId s := by
  simp only [q1SrcNode, mkRespQ1, nodeOfId]
  rw [extract_above (k := 4), extract_above (k := 0)]

/-- The node of a source id, read from quadlet 1 of a request. -/
@[simp] theorem q1SrcNode_mkReqQ1 (s : BitVec 16) (a : Addr) : q1SrcNode (mkReqQ1 s a) = nodeOfId s := by
  simp only [q1SrcNode, mkReqQ1, nodeOfId]
  rw [extract_above (k := 0)]

@[simp] theorem q3Length_mkBlockQ3 (l e : BitVec 16) : q3Length (mkBlockQ3 l e) = l := extract_high ..

@[simp] theorem q3Ext_mkBlockQ3 (l e : BitVec 16) : q3Ext (mkBlockQ3 l e) = e := by
  simp only [q3Ext, mkBlockQ3]
  rw [extract_below _ _ _ _ (by omega), BitVec.extractLsb'_eq_self]

@[simp] theorem nodeOfId_destId (n : NodeNum) : nodeOfId (destId n) = n := by
  simp only [nodeOfId, destId]
  rw [extract_below _ _ _ _ (by omega), BitVec.extractLsb'_eq_self]

/-! ### Quadlets of a byte string -/

@[simp] theorem quadAt_be32 (v : Quadlet) (rest : List Byte) : quadAt (be32 v ++ rest) 0 = v := by
  simp [quadAt, be32, byteAt]

@[simp] theorem quadAt_be32_alone (v : Quadlet) : quadAt (be32 v) 0 = v := by
  simp [quadAt, be32, byteAt]

theorem quadAt_succ (v : Quadlet) (rest : List Byte) (k : Nat) :
    quadAt (be32 v ++ rest) (k + 1) = quadAt rest k := by
  simp [quadAt, be32, byteAt, Nat.mul_add]

@[simp] theorem quadAt_be32_1 (v : Quadlet) (rest : List Byte) : quadAt (be32 v ++ rest) 1 = quadAt rest 0 :=
  quadAt_succ v rest 0

@[simp] theorem quadAt_be32_2 (v : Quadlet) (rest : List Byte) : quadAt (be32 v ++ rest) 2 = quadAt rest 1 :=
  quadAt_succ v rest 1

@[simp] theorem quadAt_be32_3 (v : Quadlet) (rest : List Byte) : quadAt (be32 v ++ rest) 3 = quadAt rest 2 :=
  quadAt_succ v rest 2

@[simp] theorem quadAt_be32_4 (v : Quadlet) (rest : List Byte) : quadAt (be32 v ++ rest) 4 = quadAt rest 3 :=
  quadAt_succ v rest 3

@[simp] theorem lowBit_bitByte (x : Bool) : lowBit (bitByte x) = x := by cases x <;> rfl

/-! ### The default configuration functions (R11) -/

@[simp] theorem functions_crc32 : functions.crc32 = crc32 := rfl
@[simp] theorem functions_bcReqData : functions.bcReqData = bcReqData := rfl
@[simp] theorem functions_bcSeqOf : functions.bcSeqOf = bcSeqOf := rfl

/-! ### CRC regions -/

/-- R81: a buffer that ends in its own CRC checks. -/
@[simp] theorem checkCrc_withCrc (h : List Byte) (c : Config.Functions) : checkCrc (withCrc h c) c = true := by
  simp [checkCrc, withCrc, Config.crcSize]

@[simp] theorem flipBit_length (m : List Byte) (i j : Nat) : (flipBit m i j).length = m.length := by simp [flipBit]

theorem be32_injective {v w : BitVec 32} (h : be32 v = be32 w) : v = w := by
  rw [← quadAt_be32_alone v, h, quadAt_be32_alone]

/-- A flipped bit is a changed string. -/
theorem flipBit_ne {m : List Byte} {i j : Nat} (hi : i < m.length) (hj : j < 8) : flipBit m i j ≠ m := by
  intro h
  have hb := congrArg (fun l => (byteAt l i).getLsbD j) h
  simp [flipBit, byteAt, hi, hj] at hb

/-- R81: a flip in the CRC itself is always seen; what is assumed of `crc32` is that a flip in what it covers changes
it. -/
theorem detectsFlips_iff {c : Config.Functions} : DetectsFlips c ↔
    ∀ (m : List Byte) (i j : Nat), i < m.length → j < 8 → c.crc32 (flipBit m i j) ≠ c.crc32 m := by
  have inside (m : List Byte) (i j : Nat) (hi : i < m.length) :
      flipBit (m ++ computeCrc m c) i j = flipBit m i j ++ computeCrc m c := by
    simp [flipBit, byteAt, List.set_append_left _ _ hi, List.getElem?_append_left hi]
  have inCrc (m : List Byte) (i j : Nat) (hi : ¬ i < m.length) :
      flipBit (m ++ computeCrc m c) i j = m ++ flipBit (computeCrc m c) (i - m.length) j := by
    simp [flipBit, byteAt, List.set_append_right _ _ (Nat.not_lt.1 hi), List.getElem?_append_right (Nat.not_lt.1 hi)]
  constructor
  · intro h m i j hi hj he
    have := h m i j (by omega) hj
    rw [inside m i j hi] at this
    simp [checkCrc, Config.crcSize, computeCrc, he] at this
  · intro h m i j hi hj
    by_cases hm : i < m.length
    · rw [inside m i j hm]
      have : be32 (c.crc32 (flipBit m i j)) ≠ be32 (c.crc32 m) := fun he => h m i j hm hj (be32_injective he)
      simpa [checkCrc, Config.crcSize, computeCrc] using this
    · rw [inCrc m i j hm]
      have := (flipBit_ne (m := computeCrc m c) (i := i - m.length) (by simp; omega) hj).symm
      simpa [checkCrc, Config.crcSize] using this

end Sys2Proof.Machine
end

