-- ==== Sys2Proof/Laws/State.lean ====
section
/-! SUPPORT. What each primitive update of the state does to each field: one lemma per field, each true by `rfl`,
so that no proof unfolds a record update.  After them, the same for the two register files read one entry at a
time. -/

namespace Sys2Proof.Machine

/-! ### `State.emit` -/

@[simp] theorem State.emit_slots (s : State) (o : Output) : (s.emit o).slots = s.slots := rfl
@[simp] theorem State.emit_node2board (s : State) (o : Output) : (s.emit o).node2board = s.node2board := rfl
@[simp] theorem State.emit_inUseMask (s : State) (o : Output) : (s.emit o).inUseMask = s.inUseMask := rfl
@[simp] theorem State.emit_numBoards (s : State) (o : Output) : (s.emit o).numBoards = s.numBoards := rfl
@[simp] theorem State.emit_portState (s : State) (o : Output) : (s.emit o).portState = s.portState := rfl
@[simp] theorem State.emit_mode (s : State) (o : Output) : (s.emit o).mode = s.mode := rfl
@[simp] theorem State.emit_busGen (s : State) (o : Output) : (s.emit o).busGen = s.busGen := rfl
@[simp] theorem State.emit_staleMap (s : State) (o : Output) : (s.emit o).staleMap = s.staleMap := rfl
@[simp] theorem State.emit_tl (s : State) (o : Output) : (s.emit o).tl = s.tl := rfl
@[simp] theorem State.emit_bcSeq (s : State) (o : Output) : (s.emit o).bcSeq = s.bcSeq := rfl
@[simp] theorem State.emit_rxTimeout (s : State) (o : Output) : (s.emit o).rxTimeout = s.rxTimeout := rfl
@[simp] theorem State.emit_noForward (s : State) (o : Output) : (s.emit o).noForward = s.noForward := rfl
@[simp] theorem State.emit_recvTicks (s : State) (o : Output) : (s.emit o).recvTicks = s.recvTicks := rfl
@[simp] theorem State.emit_totalTicks (s : State) (o : Output) : (s.emit o).totalTicks = s.totalTicks := rfl
@[simp] theorem State.emit_trailerFlags (s : State) (o : Output) : (s.emit o).trailerFlags = s.trailerFlags := rfl
@[simp] theorem State.emit_trailerAux (s : State) (o : Output) : (s.emit o).trailerAux = s.trailerAux := rfl
@[simp] theorem State.emit_phase (s : State) (o : Output) : (s.emit o).phase = s.phase := rfl
@[simp] theorem State.emit_inflight (s : State) (o : Output) : (s.emit o).inflight = s.inflight := rfl
@[simp] theorem State.emit_diagLog (s : State) (o : Output) : (s.emit o).diagLog = s.diagLog := rfl
@[simp] theorem State.emit_out (s : State) (o : Output) : (s.emit o).out = s.out ++ [o] := rfl
@[simp] theorem State.emit_input (s : State) (o : Output) : (s.emit o).input = s.input := rfl
@[simp] theorem State.emit_drawCount (s : State) (o : Output) : (s.emit o).drawCount = s.drawCount := rfl
@[simp] theorem State.emit_slot (s : State) (o : Output) (c : BoardId) : (s.emit o).slot c = s.slot c := rfl
@[simp] theorem State.emit_boardAt (s : State) (o : Output) (m : NodeId) : (s.emit o).boardAt m = s.boardAt m := rfl

/-! ### `State.result` -/

@[simp] theorem State.result_slots (s : State) (r : Result) : (s.result r).slots = s.slots := rfl
@[simp] theorem State.result_node2board (s : State) (r : Result) : (s.result r).node2board = s.node2board := rfl
@[simp] theorem State.result_inUseMask (s : State) (r : Result) : (s.result r).inUseMask = s.inUseMask := rfl
@[simp] theorem State.result_numBoards (s : State) (r : Result) : (s.result r).numBoards = s.numBoards := rfl
@[simp] theorem State.result_portState (s : State) (r : Result) : (s.result r).portState = s.portState := rfl
@[simp] theorem State.result_mode (s : State) (r : Result) : (s.result r).mode = s.mode := rfl
@[simp] theorem State.result_busGen (s : State) (r : Result) : (s.result r).busGen = s.busGen := rfl
@[simp] theorem State.result_staleMap (s : State) (r : Result) : (s.result r).staleMap = s.staleMap := rfl
@[simp] theorem State.result_tl (s : State) (r : Result) : (s.result r).tl = s.tl := rfl
@[simp] theorem State.result_bcSeq (s : State) (r : Result) : (s.result r).bcSeq = s.bcSeq := rfl
@[simp] theorem State.result_rxTimeout (s : State) (r : Result) : (s.result r).rxTimeout = s.rxTimeout := rfl
@[simp] theorem State.result_noForward (s : State) (r : Result) : (s.result r).noForward = s.noForward := rfl
@[simp] theorem State.result_recvTicks (s : State) (r : Result) : (s.result r).recvTicks = s.recvTicks := rfl
@[simp] theorem State.result_totalTicks (s : State) (r : Result) : (s.result r).totalTicks = s.totalTicks := rfl
@[simp] theorem State.result_trailerFlags (s : State) (r : Result) : (s.result r).trailerFlags = s.trailerFlags := rfl
@[simp] theorem State.result_trailerAux (s : State) (r : Result) : (s.result r).trailerAux = s.trailerAux := rfl
@[simp] theorem State.result_phase (s : State) (r : Result) : (s.result r).phase = s.phase := rfl
@[simp] theorem State.result_inflight (s : State) (r : Result) : (s.result r).inflight = s.inflight := rfl
@[simp] theorem State.result_diagLog (s : State) (r : Result) : (s.result r).diagLog = s.diagLog := rfl
@[simp] theorem State.result_out (s : State) (r : Result) : (s.result r).out = s.out ++ [.result r] := rfl
@[simp] theorem State.result_input (s : State) (r : Result) : (s.result r).input = s.input := rfl
@[simp] theorem State.result_drawCount (s : State) (r : Result) : (s.result r).drawCount = s.drawCount := rfl
@[simp] theorem State.result_slot (s : State) (r : Result) (c : BoardId) : (s.result r).slot c = s.slot c := rfl
@[simp] theorem State.result_boardAt (s : State) (r : Result) (m : NodeId) : (s.result r).boardAt m = s.boardAt m := rfl

/-! ### `State.logEntry` -/

@[simp] theorem State.logEntry_slots (s : State) (e : LogEntry) : (s.logEntry e).slots = s.slots := rfl
@[simp] theorem State.logEntry_node2board (s : State) (e : LogEntry) : (s.logEntry e).node2board = s.node2board := rfl
@[simp] theorem State.logEntry_inUseMask (s : State) (e : LogEntry) : (s.logEntry e).inUseMask = s.inUseMask := rfl
@[simp] theorem State.logEntry_numBoards (s : State) (e : LogEntry) : (s.logEntry e).numBoards = s.numBoards := rfl
@[simp] theorem State.logEntry_portState (s : State) (e : LogEntry) : (s.logEntry e).portState = s.portState := rfl
@[simp] theorem State.logEntry_mode (s : State) (e : LogEntry) : (s.logEntry e).mode = s.mode := rfl
@[simp] theorem State.logEntry_busGen (s : State) (e : LogEntry) : (s.logEntry e).busGen = s.busGen := rfl
@[simp] theorem State.logEntry_staleMap (s : State) (e : LogEntry) : (s.logEntry e).staleMap = s.staleMap := rfl
@[simp] theorem State.logEntry_tl (s : State) (e : LogEntry) : (s.logEntry e).tl = s.tl := rfl
@[simp] theorem State.logEntry_bcSeq (s : State) (e : LogEntry) : (s.logEntry e).bcSeq = s.bcSeq := rfl
@[simp] theorem State.logEntry_rxTimeout (s : State) (e : LogEntry) : (s.logEntry e).rxTimeout = s.rxTimeout := rfl
@[simp] theorem State.logEntry_noForward (s : State) (e : LogEntry) : (s.logEntry e).noForward = s.noForward := rfl
@[simp] theorem State.logEntry_recvTicks (s : State) (e : LogEntry) : (s.logEntry e).recvTicks = s.recvTicks := rfl
@[simp] theorem State.logEntry_totalTicks (s : State) (e : LogEntry) : (s.logEntry e).totalTicks = s.totalTicks := rfl
@[simp] theorem State.logEntry_trailerFlags (s : State) (e : LogEntry) : (s.logEntry e).trailerFlags = s.trailerFlags := rfl
@[simp] theorem State.logEntry_trailerAux (s : State) (e : LogEntry) : (s.logEntry e).trailerAux = s.trailerAux := rfl
@[simp] theorem State.logEntry_phase (s : State) (e : LogEntry) : (s.logEntry e).phase = s.phase := rfl
@[simp] theorem State.logEntry_inflight (s : State) (e : LogEntry) : (s.logEntry e).inflight = s.inflight := rfl
@[simp] theorem State.logEntry_diagLog (s : State) (e : LogEntry) : (s.logEntry e).diagLog = s.diagLog ++ [e] := rfl
@[simp] theorem State.logEntry_out (s : State) (e : LogEntry) : (s.logEntry e).out = s.out ++ [.diag e] := rfl
@[simp] theorem State.logEntry_input (s : State) (e : LogEntry) : (s.logEntry e).input = s.input := rfl
@[simp] theorem State.logEntry_drawCount (s : State) (e : LogEntry) : (s.logEntry e).drawCount = s.drawCount := rfl
@[simp] theorem State.logEntry_slot (s : State) (e : LogEntry) (c : BoardId) : (s.logEntry e).slot c = s.slot c := rfl
@[simp] theorem State.logEntry_boardAt (s : State) (e : LogEntry) (m : NodeId) : (s.logEntry e).boardAt m = s.boardAt m := rfl

/-! ### `State.finish` -/

@[simp] theorem State.finish_slots (s : State) (r : Result) : (s.finish r).slots = s.slots := rfl
@[simp] theorem State.finish_node2board (s : State) (r : Result) : (s.finish r).node2board = s.node2board := rfl
@[simp] theorem State.finish_inUseMask (s : State) (r : Result) : (s.finish r).inUseMask = s.inUseMask := rfl
@[simp] theorem State.finish_numBoards (s : State) (r : Result) : (s.finish r).numBoards = s.numBoards := rfl
@[simp] theorem State.finish_portState (s : State) (r : Result) : (s.finish r).portState = s.portState := rfl
@[simp] theorem State.finish_mode (s : State) (r : Result) : (s.finish r).mode = s.mode := rfl
@[simp] theorem State.finish_busGen (s : State) (r : Result) : (s.finish r).busGen = s.busGen := rfl
@[simp] theorem State.finish_staleMap (s : State) (r : Result) : (s.finish r).staleMap = s.staleMap := rfl
@[simp] theorem State.finish_tl (s : State) (r : Result) : (s.finish r).tl = s.tl := rfl
@[simp] theorem State.finish_bcSeq (s : State) (r : Result) : (s.finish r).bcSeq = s.bcSeq := rfl
@[simp] theorem State.finish_rxTimeout (s : State) (r : Result) : (s.finish r).rxTimeout = s.rxTimeout := rfl
@[simp] theorem State.finish_noForward (s : State) (r : Result) : (s.finish r).noForward = s.noForward := rfl
@[simp] theorem State.finish_recvTicks (s : State) (r : Result) : (s.finish r).recvTicks = s.recvTicks := rfl
@[simp] theorem State.finish_totalTicks (s : State) (r : Result) : (s.finish r).totalTicks = s.totalTicks := rfl
@[simp] theorem State.finish_trailerFlags (s : State) (r : Result) : (s.finish r).trailerFlags = s.trailerFlags := rfl
@[simp] theorem State.finish_trailerAux (s : State) (r : Result) : (s.finish r).trailerAux = s.trailerAux := rfl
@[simp] theorem State.finish_phase (s : State) (r : Result) : (s.finish r).phase = .idle := rfl
@[simp] theorem State.finish_inflight (s : State) (r : Result) : (s.finish r).inflight = none := rfl
@[simp] theorem State.finish_diagLog (s : State) (r : Result) : (s.finish r).diagLog = s.diagLog := rfl
@[simp] theorem State.finish_out (s : State) (r : Result) : (s.finish r).out = s.out ++ [.result r] := rfl
@[simp] theorem State.finish_input (s : State) (r : Result) : (s.finish r).input = s.input := rfl
@[simp] theorem State.finish_drawCount (s : State) (r : Result) : (s.finish r).drawCount = s.drawCount := rfl
@[simp] theorem State.finish_slot (s : State) (r : Result) (c : BoardId) : (s.finish r).slot c = s.slot c := rfl
@[simp] theorem State.finish_boardAt (s : State) (r : Result) (m : NodeId) : (s.finish r).boardAt m = s.boardAt m := rfl

/-! ### `State.fail` -/

@[simp] theorem State.fail_slots (s : State) (f : Inflight) (g : Reason) (r : Result) : (s.fail f g r).slots = s.slots := rfl
@[simp] theorem State.fail_node2board (s : State) (f : Inflight) (g : Reason) (r : Result) : (s.fail f g r).node2board = s.node2board := rfl
@[simp] theorem State.fail_inUseMask (s : State) (f : Inflight) (g : Reason) (r : Result) : (s.fail f g r).inUseMask = s.inUseMask := rfl
@[simp] theorem State.fail_numBoards (s : State) (f : Inflight) (g : Reason) (r : Result) : (s.fail f g r).numBoards = s.numBoards := rfl
@[simp] theorem State.fail_portState (s : State) (f : Inflight) (g : Reason) (r : Result) : (s.fail f g r).portState = s.portState := rfl
@[simp] theorem State.fail_mode (s : State) (f : Inflight) (g : Reason) (r : Result) : (s.fail f g r).mode = s.mode := rfl
@[simp] theorem State.fail_busGen (s : State) (f : Inflight) (g : Reason) (r : Result) : (s.fail f g r).busGen = s.busGen := rfl
@[simp] theorem State.fail_staleMap (s : State) (f : Inflight) (g : Reason) (r : Result) : (s.fail f g r).staleMap = s.staleMap := rfl
@[simp] theorem State.fail_tl (s : State) (f : Inflight) (g : Reason) (r : Result) : (s.fail f g r).tl = s.tl := rfl
@[simp] theorem State.fail_bcSeq (s : State) (f : Inflight) (g : Reason) (r : Result) : (s.fail f g r).bcSeq = s.bcSeq := rfl
@[simp] theorem State.fail_rxTimeout (s : State) (f : Inflight) (g : Reason) (r : Result) : (s.fail f g r).rxTimeout = s.rxTimeout := rfl
@[simp] theorem State.fail_noForward (s : State) (f : Inflight) (g : Reason) (r : Result) : (s.fail f g r).noForward = s.noForward := rfl
@[simp] theorem State.fail_recvTicks (s : State) (f : Inflight) (g : Reason) (r : Result) : (s.fail f g r).recvTicks = s.recvTicks := rfl
@[simp] theorem State.fail_totalTicks (s : State) (f : Inflight) (g : Reason) (r : Result) : (s.fail f g r).totalTicks = s.totalTicks := rfl
@[simp] theorem State.fail_trailerFlags (s : State) (f : Inflight) (g : Reason) (r : Result) : (s.fail f g r).trailerFlags = s.trailerFlags := rfl
@[simp] theorem State.fail_trailerAux (s : State) (f : Inflight) (g : Reason) (r : Result) : (s.fail f g r).trailerAux = s.trailerAux := rfl
@[simp] theorem State.fail_phase (s : State) (f : Inflight) (g : Reason) (r : Result) : (s.fail f g r).phase = .idle := rfl
@[simp] theorem State.fail_inflight (s : State) (f : Inflight) (g : Reason) (r : Result) : (s.fail f g r).inflight = none := rfl
@[simp] theorem State.fail_diagLog (s : State) (f : Inflight) (g : Reason) (r : Result) : (s.fail f g r).diagLog = s.diagLog ++ [f.entry g] := rfl
@[simp] theorem State.fail_out (s : State) (f : Inflight) (g : Reason) (r : Result) : (s.fail f g r).out = s.out ++ [.diag (f.entry g)] ++ [.result r] := rfl
@[simp] theorem State.fail_input (s : State) (f : Inflight) (g : Reason) (r : Result) : (s.fail f g r).input = s.input := rfl
@[simp] theorem State.fail_drawCount (s : State) (f : Inflight) (g : Reason) (r : Result) : (s.fail f g r).drawCount = s.drawCount := rfl
@[simp] theorem State.fail_slot (s : State) (f : Inflight) (g : Reason) (r : Result) (c : BoardId) : (s.fail f g r).slot c = s.slot c := rfl
@[simp] theorem State.fail_boardAt (s : State) (f : Inflight) (g : Reason) (r : Result) (m : NodeId) : (s.fail f g r).boardAt m = s.boardAt m := rfl

/-! ### `State.setSlot` -/

@[simp] theorem State.setSlot_slots (s : State) (b : BoardId) (x : Slot) : (s.setSlot b x).slots = s.slots.set b.val x b.isLt := rfl
@[simp] theorem State.setSlot_node2board (s : State) (b : BoardId) (x : Slot) : (s.setSlot b x).node2board = s.node2board := rfl
@[simp] theorem State.setSlot_inUseMask (s : State) (b : BoardId) (x : Slot) : (s.setSlot b x).inUseMask = s.inUseMask := rfl
@[simp] theorem State.setSlot_numBoards (s : State) (b : BoardId) (x : Slot) : (s.setSlot b x).numBoards = s.numBoards := rfl
@[simp] theorem State.setSlot_portState (s : State) (b : BoardId) (x : Slot) : (s.setSlot b x).portState = s.portState := rfl
@[simp] theorem State.setSlot_mode (s : State) (b : BoardId) (x : Slot) : (s.setSlot b x).mode = s.mode := rfl
@[simp] theorem State.setSlot_busGen (s : State) (b : BoardId) (x : Slot) : (s.setSlot b x).busGen = s.busGen := rfl
@[simp] theorem State.setSlot_staleMap (s : State) (b : BoardId) (x : Slot) : (s.setSlot b x).staleMap = s.staleMap := rfl
@[simp] theorem State.setSlot_tl (s : State) (b : BoardId) (x : Slot) : (s.setSlot b x).tl = s.tl := rfl
@[simp] theorem State.setSlot_bcSeq (s : State) (b : BoardId) (x : Slot) : (s.setSlot b x).bcSeq = s.bcSeq := rfl
@[simp] theorem State.setSlot_rxTimeout (s : State) (b : BoardId) (x : Slot) : (s.setSlot b x).rxTimeout = s.rxTimeout := rfl
@[simp] theorem State.setSlot_noForward (s : State) (b : BoardId) (x : Slot) : (s.setSlot b x).noForward = s.noForward := rfl
@[simp] theorem State.setSlot_recvTicks (s : State) (b : BoardId) (x : Slot) : (s.setSlot b x).recvTicks = s.recvTicks := rfl
@[simp] theorem State.setSlot_totalTicks (s : State) (b : BoardId) (x : Slot) : (s.setSlot b x).totalTicks = s.totalTicks := rfl
@[simp] theorem State.setSlot_trailerFlags (s : State) (b : BoardId) (x : Slot) : (s.setSlot b x).trailerFlags = s.trailerFlags := rfl
@[simp] theorem State.setSlot_trailerAux (s : State) (b : BoardId) (x : Slot) : (s.setSlot b x).trailerAux = s.trailerAux := rfl
@[simp] theorem State.setSlot_phase (s : State) (b : BoardId) (x : Slot) : (s.setSlot b x).phase = s.phase := rfl
@[simp] theorem State.setSlot_inflight (s : State) (b : BoardId) (x : Slot) : (s.setSlot b x).inflight = s.inflight := rfl
@[simp] theorem State.setSlot_diagLog (s : State) (b : BoardId) (x : Slot) : (s.setSlot b x).diagLog = s.diagLog := rfl
@[simp] theorem State.setSlot_out (s : State) (b : BoardId) (x : Slot) : (s.setSlot b x).out = s.out := rfl
@[simp] theorem State.setSlot_input (s : State) (b : BoardId) (x : Slot) : (s.setSlot b x).input = s.input := rfl
@[simp] theorem State.setSlot_drawCount (s : State) (b : BoardId) (x : Slot) : (s.setSlot b x).drawCount = s.drawCount := rfl
@[simp] theorem State.setSlot_boardAt (s : State) (b : BoardId) (x : Slot) (m : NodeId) : (s.setSlot b x).boardAt m = s.boardAt m := rfl

/-! ### `State.setNode` -/

@[simp] theorem State.setNode_node2board (s : State) (b : BoardId) (n : Option NodeId) : (s.setNode b n).node2board = s.node2board := rfl
@[simp] theorem State.setNode_inUseMask (s : State) (b : BoardId) (n : Option NodeId) : (s.setNode b n).inUseMask = s.inUseMask := rfl
@[simp] theorem State.setNode_numBoards (s : State) (b : BoardId) (n : Option NodeId) : (s.setNode b n).numBoards = s.numBoards := rfl
@[simp] theorem State.setNode_portState (s : State) (b : BoardId) (n : Option NodeId) : (s.setNode b n).portState = s.portState := rfl
@[simp] theorem State.setNode_mode (s : State) (b : BoardId) (n : Option NodeId) : (s.setNode b n).mode = s.mode := rfl
@[simp] theorem State.setNode_busGen (s : State) (b : BoardId) (n : Option NodeId) : (s.setNode b n).busGen = s.busGen := rfl
@[simp] theorem State.setNode_staleMap (s : State) (b : BoardId) (n : Option NodeId) : (s.setNode b n).staleMap = s.staleMap := rfl
@[simp] theorem State.setNode_tl (s : State) (b : BoardId) (n : Option NodeId) : (s.setNode b n).tl = s.tl := rfl
@[simp] theorem State.setNode_bcSeq (s : State) (b : BoardId) (n : Option NodeId) : (s.setNode b n).bcSeq = s.bcSeq := rfl
@[simp] theorem State.setNode_rxTimeout (s : State) (b : BoardId) (n : Option NodeId) : (s.setNode b n).rxTimeout = s.rxTimeout := rfl
@[simp] theorem State.setNode_noForward (s : State) (b : BoardId) (n : Option NodeId) : (s.setNode b n).noForward = s.noForward := rfl
@[simp] theorem State.setNode_recvTicks (s : State) (b : BoardId) (n : Option NodeId) : (s.setNode b n).recvTicks = s.recvTicks := rfl
@[simp] theorem State.setNode_totalTicks (s : State) (b : BoardId) (n : Option NodeId) : (s.setNode b n).totalTicks = s.totalTicks := rfl
@[simp] theorem State.setNode_trailerFlags (s : State) (b : BoardId) (n : Option NodeId) : (s.setNode b n).trailerFlags = s.trailerFlags := rfl
@[simp] theorem State.setNode_trailerAux (s : State) (b : BoardId) (n : Option NodeId) : (s.setNode b n).trailerAux = s.trailerAux := rfl
@[simp] theorem State.setNode_phase (s : State) (b : BoardId) (n : Option NodeId) : (s.setNode b n).phase = s.phase := rfl
@[simp] theorem State.setNode_inflight (s : State) (b : BoardId) (n : Option NodeId) : (s.setNode b n).inflight = s.inflight := rfl
@[simp] theorem State.setNode_diagLog (s : State) (b : BoardId) (n : Option NodeId) : (s.setNode b n).diagLog = s.diagLog := rfl
@[simp] theorem State.setNode_out (s : State) (b : BoardId) (n : Option NodeId) : (s.setNode b n).out = s.out := rfl
@[simp] theorem State.setNode_input (s : State) (b : BoardId) (n : Option NodeId) : (s.setNode b n).input = s.input := rfl
@[simp] theorem State.setNode_drawCount (s : State) (b : BoardId) (n : Option NodeId) : (s.setNode b n).drawCount = s.drawCount := rfl
@[simp] theorem State.setNode_boardAt (s : State) (b : BoardId) (n : Option NodeId) (m : NodeId) : (s.setNode b n).boardAt m = s.boardAt m := rfl

/-! ### `State.setBoardAt` -/

@[simp] theorem State.setBoardAt_slots (s : State) (n : NodeId) (b : Option BoardId) : (s.setBoardAt n b).slots = s.slots := rfl
@[simp] theorem State.setBoardAt_node2board (s : State) (n : NodeId) (b : Option BoardId) : (s.setBoardAt n b).node2board = s.node2board.set n.val b n.isLt := rfl
@[simp] theorem State.setBoardAt_inUseMask (s : State) (n : NodeId) (b : Option BoardId) : (s.setBoardAt n b).inUseMask = s.inUseMask := rfl
@[simp] theorem State.setBoardAt_numBoards (s : State) (n : NodeId) (b : Option BoardId) : (s.setBoardAt n b).numBoards = s.numBoards := rfl
@[simp] theorem State.setBoardAt_portState (s : State) (n : NodeId) (b : Option BoardId) : (s.setBoardAt n b).portState = s.portState := rfl
@[simp] theorem State.setBoardAt_mode (s : State) (n : NodeId) (b : Option BoardId) : (s.setBoardAt n b).mode = s.mode := rfl
@[simp] theorem State.setBoardAt_busGen (s : State) (n : NodeId) (b : Option BoardId) : (s.setBoardAt n b).busGen = s.busGen := rfl
@[simp] theorem State.setBoardAt_staleMap (s : State) (n : NodeId) (b : Option BoardId) : (s.setBoardAt n b).staleMap = s.staleMap := rfl
@[simp] theorem State.setBoardAt_tl (s : State) (n : NodeId) (b : Option BoardId) : (s.setBoardAt n b).tl = s.tl := rfl
@[simp] theorem State.setBoardAt_bcSeq (s : State) (n : NodeId) (b : Option BoardId) : (s.setBoardAt n b).bcSeq = s.bcSeq := rfl
@[simp] theorem State.setBoardAt_rxTimeout (s : State) (n : NodeId) (b : Option BoardId) : (s.setBoardAt n b).rxTimeout = s.rxTimeout := rfl
@[simp] theorem State.setBoardAt_noForward (s : State) (n : NodeId) (b : Option BoardId) : (s.setBoardAt n b).noForward = s.noForward := rfl
@[simp] theorem State.setBoardAt_recvTicks (s : State) (n : NodeId) (b : Option BoardId) : (s.setBoardAt n b).recvTicks = s.recvTicks := rfl
@[simp] theorem State.setBoardAt_totalTicks (s : State) (n : NodeId) (b : Option BoardId) : (s.setBoardAt n b).totalTicks = s.totalTicks := rfl
@[simp] theorem State.setBoardAt_trailerFlags (s : State) (n : NodeId) (b : Option BoardId) : (s.setBoardAt n b).trailerFlags = s.trailerFlags := rfl
@[simp] theorem State.setBoardAt_trailerAux (s : State) (n : NodeId) (b : Option BoardId) : (s.setBoardAt n b).trailerAux = s.trailerAux := rfl
@[simp] theorem State.setBoardAt_phase (s : State) (n : NodeId) (b : Option BoardId) : (s.setBoardAt n b).phase = s.phase := rfl
@[simp] theorem State.setBoardAt_inflight (s : State) (n : NodeId) (b : Option BoardId) : (s.setBoardAt n b).inflight = s.inflight := rfl
@[simp] theorem State.setBoardAt_diagLog (s : State) (n : NodeId) (b : Option BoardId) : (s.setBoardAt n b).diagLog = s.diagLog := rfl
@[simp] theorem State.setBoardAt_out (s : State) (n : NodeId) (b : Option BoardId) : (s.setBoardAt n b).out = s.out := rfl
@[simp] theorem State.setBoardAt_input (s : State) (n : NodeId) (b : Option BoardId) : (s.setBoardAt n b).input = s.input := rfl
@[simp] theorem State.setBoardAt_drawCount (s : State) (n : NodeId) (b : Option BoardId) : (s.setBoardAt n b).drawCount = s.drawCount := rfl
@[simp] theorem State.setBoardAt_slot (s : State) (n : NodeId) (b : Option BoardId) (c : BoardId) : (s.setBoardAt n b).slot c = s.slot c := rfl

/-! ### `State.advanceLabel` -/

@[simp] theorem State.advanceLabel_slots (s : State) : (s.advanceLabel).slots = s.slots := rfl
@[simp] theorem State.advanceLabel_node2board (s : State) : (s.advanceLabel).node2board = s.node2board := rfl
@[simp] theorem State.advanceLabel_inUseMask (s : State) : (s.advanceLabel).inUseMask = s.inUseMask := rfl
@[simp] theorem State.advanceLabel_numBoards (s : State) : (s.advanceLabel).numBoards = s.numBoards := rfl
@[simp] theorem State.advanceLabel_portState (s : State) : (s.advanceLabel).portState = s.portState := rfl
@[simp] theorem State.advanceLabel_mode (s : State) : (s.advanceLabel).mode = s.mode := rfl
@[simp] theorem State.advanceLabel_busGen (s : State) : (s.advanceLabel).busGen = s.busGen := rfl
@[simp] theorem State.advanceLabel_staleMap (s : State) : (s.advanceLabel).staleMap = s.staleMap := rfl
@[simp] theorem State.advanceLabel_tl (s : State) : (s.advanceLabel).tl = s.tl + 1#6 := rfl
@[simp] theorem State.advanceLabel_bcSeq (s : State) : (s.advanceLabel).bcSeq = s.bcSeq := rfl
@[simp] theorem State.advanceLabel_rxTimeout (s : State) : (s.advanceLabel).rxTimeout = s.rxTimeout := rfl
@[simp] theorem State.advanceLabel_noForward (s : State) : (s.advanceLabel).noForward = s.noForward := rfl
@[simp] theorem State.advanceLabel_recvTicks (s : State) : (s.advanceLabel).recvTicks = s.recvTicks := rfl
@[simp] theorem State.advanceLabel_totalTicks (s : State) : (s.advanceLabel).totalTicks = s.totalTicks := rfl
@[simp] theorem State.advanceLabel_trailerFlags (s : State) : (s.advanceLabel).trailerFlags = s.trailerFlags := rfl
@[simp] theorem State.advanceLabel_trailerAux (s : State) : (s.advanceLabel).trailerAux = s.trailerAux := rfl
@[simp] theorem State.advanceLabel_phase (s : State) : (s.advanceLabel).phase = s.phase := rfl
@[simp] theorem State.advanceLabel_inflight (s : State) : (s.advanceLabel).inflight = s.inflight := rfl
@[simp] theorem State.advanceLabel_diagLog (s : State) : (s.advanceLabel).diagLog = s.diagLog := rfl
@[simp] theorem State.advanceLabel_out (s : State) : (s.advanceLabel).out = s.out := rfl
@[simp] theorem State.advanceLabel_input (s : State) : (s.advanceLabel).input = s.input := rfl
@[simp] theorem State.advanceLabel_drawCount (s : State) : (s.advanceLabel).drawCount = s.drawCount := rfl
@[simp] theorem State.advanceLabel_slot (s : State) (c : BoardId) : (s.advanceLabel).slot c = s.slot c := rfl
@[simp] theorem State.advanceLabel_boardAt (s : State) (m : NodeId) : (s.advanceLabel).boardAt m = s.boardAt m := rfl

/-! ### `State.handOver` -/

@[simp] theorem State.handOver_slots (s : State) (f : Inflight) (frame : List Byte) : (s.handOver f frame).slots = s.slots := rfl
@[simp] theorem State.handOver_node2board (s : State) (f : Inflight) (frame : List Byte) : (s.handOver f frame).node2board = s.node2board := rfl
@[simp] theorem State.handOver_inUseMask (s : State) (f : Inflight) (frame : List Byte) : (s.handOver f frame).inUseMask = s.inUseMask := rfl
@[simp] theorem State.handOver_numBoards (s : State) (f : Inflight) (frame : List Byte) : (s.handOver f frame).numBoards = s.numBoards := rfl
@[simp] theorem State.handOver_portState (s : State) (f : Inflight) (frame : List Byte) : (s.handOver f frame).portState = s.portState := rfl
@[simp] theorem State.handOver_mode (s : State) (f : Inflight) (frame : List Byte) : (s.handOver f frame).mode = s.mode := rfl
@[simp] theorem State.handOver_busGen (s : State) (f : Inflight) (frame : List Byte) : (s.handOver f frame).busGen = s.busGen := rfl
@[simp] theorem State.handOver_staleMap (s : State) (f : Inflight) (frame : List Byte) : (s.handOver f frame).staleMap = s.staleMap := rfl
@[simp] theorem State.handOver_tl (s : State) (f : Inflight) (frame : List Byte) : (s.handOver f frame).tl = s.tl := rfl
@[simp] theorem State.handOver_bcSeq (s : State) (f : Inflight) (frame : List Byte) : (s.handOver f frame).bcSeq = s.bcSeq := rfl
@[simp] theorem State.handOver_rxTimeout (s : State) (f : Inflight) (frame : List Byte) : (s.handOver f frame).rxTimeout = s.rxTimeout := rfl
@[simp] theorem State.handOver_noForward (s : State) (f : Inflight) (frame : List Byte) : (s.handOver f frame).noForward = s.noForward := rfl
@[simp] theorem State.handOver_recvTicks (s : State) (f : Inflight) (frame : List Byte) : (s.handOver f frame).recvTicks = s.recvTicks := rfl
@[simp] theorem State.handOver_totalTicks (s : State) (f : Inflight) (frame : List Byte) : (s.handOver f frame).totalTicks = s.totalTicks := rfl
@[simp] theorem State.handOver_trailerFlags (s : State) (f : Inflight) (frame : List Byte) : (s.handOver f frame).trailerFlags = s.trailerFlags := rfl
@[simp] theorem State.handOver_trailerAux (s : State) (f : Inflight) (frame : List Byte) : (s.handOver f frame).trailerAux = s.trailerAux := rfl
@[simp] theorem State.handOver_phase (s : State) (f : Inflight) (frame : List Byte) : (s.handOver f frame).phase = .waitSend := rfl
@[simp] theorem State.handOver_inflight (s : State) (f : Inflight) (frame : List Byte) : (s.handOver f frame).inflight = some f := rfl
@[simp] theorem State.handOver_diagLog (s : State) (f : Inflight) (frame : List Byte) : (s.handOver f frame).diagLog = s.diagLog := rfl
@[simp] theorem State.handOver_out (s : State) (f : Inflight) (frame : List Byte) : (s.handOver f frame).out = s.out ++ [.send (ethWrap s.noForward s.busGen frame)] := rfl
@[simp] theorem State.handOver_input (s : State) (f : Inflight) (frame : List Byte) : (s.handOver f frame).input = s.input := rfl
@[simp] theorem State.handOver_drawCount (s : State) (f : Inflight) (frame : List Byte) : (s.handOver f frame).drawCount = s.drawCount := rfl
@[simp] theorem State.handOver_slot (s : State) (f : Inflight) (frame : List Byte) (c : BoardId) : (s.handOver f frame).slot c = s.slot c := rfl
@[simp] theorem State.handOver_boardAt (s : State) (f : Inflight) (frame : List Byte) (m : NodeId) : (s.handOver f frame).boardAt m = s.boardAt m := rfl

/-! ### `State.awaitReceive` -/

@[simp] theorem State.awaitReceive_slots (s : State) : (s.awaitReceive).slots = s.slots := rfl
@[simp] theorem State.awaitReceive_node2board (s : State) : (s.awaitReceive).node2board = s.node2board := rfl
@[simp] theorem State.awaitReceive_inUseMask (s : State) : (s.awaitReceive).inUseMask = s.inUseMask := rfl
@[simp] theorem State.awaitReceive_numBoards (s : State) : (s.awaitReceive).numBoards = s.numBoards := rfl
@[simp] theorem State.awaitReceive_portState (s : State) : (s.awaitReceive).portState = s.portState := rfl
@[simp] theorem State.awaitReceive_mode (s : State) : (s.awaitReceive).mode = s.mode := rfl
@[simp] theorem State.awaitReceive_busGen (s : State) : (s.awaitReceive).busGen = s.busGen := rfl
@[simp] theorem State.awaitReceive_staleMap (s : State) : (s.awaitReceive).staleMap = s.staleMap := rfl
@[simp] theorem State.awaitReceive_tl (s : State) : (s.awaitReceive).tl = s.tl := rfl
@[simp] theorem State.awaitReceive_bcSeq (s : State) : (s.awaitReceive).bcSeq = s.bcSeq := rfl
@[simp] theorem State.awaitReceive_rxTimeout (s : State) : (s.awaitReceive).rxTimeout = s.rxTimeout := rfl
@[simp] theorem State.awaitReceive_noForward (s : State) : (s.awaitReceive).noForward = s.noForward := rfl
@[simp] theorem State.awaitReceive_recvTicks (s : State) : (s.awaitReceive).recvTicks = s.recvTicks := rfl
@[simp] theorem State.awaitReceive_totalTicks (s : State) : (s.awaitReceive).totalTicks = s.totalTicks := rfl
@[simp] theorem State.awaitReceive_trailerFlags (s : State) : (s.awaitReceive).trailerFlags = s.trailerFlags := rfl
@[simp] theorem State.awaitReceive_trailerAux (s : State) : (s.awaitReceive).trailerAux = s.trailerAux := rfl
@[simp] theorem State.awaitReceive_phase (s : State) : (s.awaitReceive).phase = .waitRecv := rfl
@[simp] theorem State.awaitReceive_inflight (s : State) : (s.awaitReceive).inflight = s.inflight := rfl
@[simp] theorem State.awaitReceive_diagLog (s : State) : (s.awaitReceive).diagLog = s.diagLog := rfl
@[simp] theorem State.awaitReceive_out (s : State) : (s.awaitReceive).out = s.out ++ [.receive s.rxTimeout] := rfl
@[simp] theorem State.awaitReceive_input (s : State) : (s.awaitReceive).input = s.input := rfl
@[simp] theorem State.awaitReceive_drawCount (s : State) : (s.awaitReceive).drawCount = s.drawCount := rfl
@[simp] theorem State.awaitReceive_slot (s : State) (c : BoardId) : (s.awaitReceive).slot c = s.slot c := rfl
@[simp] theorem State.awaitReceive_boardAt (s : State) (m : NodeId) : (s.awaitReceive).boardAt m = s.boardAt m := rfl

/-! ### `State.acceptTrailer` -/

@[simp] theorem State.acceptTrailer_slots (s : State) (tr : List Byte) : (s.acceptTrailer tr).slots = s.slots := rfl
@[simp] theorem State.acceptTrailer_node2board (s : State) (tr : List Byte) : (s.acceptTrailer tr).node2board = s.node2board := rfl
@[simp] theorem State.acceptTrailer_inUseMask (s : State) (tr : List Byte) : (s.acceptTrailer tr).inUseMask = s.inUseMask := rfl
@[simp] theorem State.acceptTrailer_numBoards (s : State) (tr : List Byte) : (s.acceptTrailer tr).numBoards = s.numBoards := rfl
@[simp] theorem State.acceptTrailer_portState (s : State) (tr : List Byte) : (s.acceptTrailer tr).portState = s.portState := rfl
@[simp] theorem State.acceptTrailer_mode (s : State) (tr : List Byte) : (s.acceptTrailer tr).mode = s.mode := rfl
@[simp] theorem State.acceptTrailer_busGen (s : State) (tr : List Byte) : (s.acceptTrailer tr).busGen = s.busGen := rfl
@[simp] theorem State.acceptTrailer_staleMap (s : State) (tr : List Byte) : (s.acceptTrailer tr).staleMap = s.staleMap := rfl
@[simp] theorem State.acceptTrailer_tl (s : State) (tr : List Byte) : (s.acceptTrailer tr).tl = s.tl := rfl
@[simp] theorem State.acceptTrailer_bcSeq (s : State) (tr : List Byte) : (s.acceptTrailer tr).bcSeq = s.bcSeq := rfl
@[simp] theorem State.acceptTrailer_rxTimeout (s : State) (tr : List Byte) : (s.acceptTrailer tr).rxTimeout = s.rxTimeout := rfl
@[simp] theorem State.acceptTrailer_noForward (s : State) (tr : List Byte) : (s.acceptTrailer tr).noForward = s.noForward := rfl
@[simp] theorem State.acceptTrailer_recvTicks (s : State) (tr : List Byte) : (s.acceptTrailer tr).recvTicks = (decodeExtraTrailer tr).recvTicks := rfl
@[simp] theorem State.acceptTrailer_totalTicks (s : State) (tr : List Byte) : (s.acceptTrailer tr).totalTicks = (decodeExtraTrailer tr).totalTicks := rfl
@[simp] theorem State.acceptTrailer_trailerFlags (s : State) (tr : List Byte) : (s.acceptTrailer tr).trailerFlags = (decodeExtraTrailer tr).flags := rfl
@[simp] theorem State.acceptTrailer_trailerAux (s : State) (tr : List Byte) : (s.acceptTrailer tr).trailerAux = (decodeExtraTrailer tr).aux := rfl
@[simp] theorem State.acceptTrailer_phase (s : State) (tr : List Byte) : (s.acceptTrailer tr).phase = s.phase := rfl
@[simp] theorem State.acceptTrailer_inflight (s : State) (tr : List Byte) : (s.acceptTrailer tr).inflight = s.inflight := rfl
@[simp] theorem State.acceptTrailer_diagLog (s : State) (tr : List Byte) : (s.acceptTrailer tr).diagLog = s.diagLog := rfl
@[simp] theorem State.acceptTrailer_out (s : State) (tr : List Byte) : (s.acceptTrailer tr).out = s.out := rfl
@[simp] theorem State.acceptTrailer_input (s : State) (tr : List Byte) : (s.acceptTrailer tr).input = s.input := rfl
@[simp] theorem State.acceptTrailer_drawCount (s : State) (tr : List Byte) : (s.acceptTrailer tr).drawCount = s.drawCount := rfl
@[simp] theorem State.acceptTrailer_slot (s : State) (tr : List Byte) (c : BoardId) : (s.acceptTrailer tr).slot c = s.slot c := rfl
@[simp] theorem State.acceptTrailer_boardAt (s : State) (tr : List Byte) (m : NodeId) : (s.acceptTrailer tr).boardAt m = s.boardAt m := rfl

/-! ### `State.busResetAction` -/

@[simp] theorem State.busResetAction_slots (s : State) (g : BitVec 8) : (s.busResetAction g).slots = s.slots := rfl
@[simp] theorem State.busResetAction_node2board (s : State) (g : BitVec 8) : (s.busResetAction g).node2board = s.node2board := rfl
@[simp] theorem State.busResetAction_inUseMask (s : State) (g : BitVec 8) : (s.busResetAction g).inUseMask = s.inUseMask := rfl
@[simp] theorem State.busResetAction_numBoards (s : State) (g : BitVec 8) : (s.busResetAction g).numBoards = s.numBoards := rfl
@[simp] theorem State.busResetAction_portState (s : State) (g : BitVec 8) : (s.busResetAction g).portState = s.portState := rfl
@[simp] theorem State.busResetAction_mode (s : State) (g : BitVec 8) : (s.busResetAction g).mode = s.mode := rfl
@[simp] theorem State.busResetAction_busGen (s : State) (g : BitVec 8) : (s.busResetAction g).busGen = g := rfl
@[simp] theorem State.busResetAction_staleMap (s : State) (g : BitVec 8) : (s.busResetAction g).staleMap = true := rfl
@[simp] theorem State.busResetAction_tl (s : State) (g : BitVec 8) : (s.busResetAction g).tl = s.tl := rfl
@[simp] theorem State.busResetAction_bcSeq (s : State) (g : BitVec 8) : (s.busResetAction g).bcSeq = s.bcSeq := rfl
@[simp] theorem State.busResetAction_rxTimeout (s : State) (g : BitVec 8) : (s.busResetAction g).rxTimeout = s.rxTimeout := rfl
@[simp] theorem State.busResetAction_noForward (s : State) (g : BitVec 8) : (s.busResetAction g).noForward = s.noForward := rfl
@[simp] theorem State.busResetAction_recvTicks (s : State) (g : BitVec 8) : (s.busResetAction g).recvTicks = s.recvTicks := rfl
@[simp] theorem State.busResetAction_totalTicks (s : State) (g : BitVec 8) : (s.busResetAction g).totalTicks = s.totalTicks := rfl
@[simp] theorem State.busResetAction_trailerFlags (s : State) (g : BitVec 8) : (s.busResetAction g).trailerFlags = s.trailerFlags := rfl
@[simp] theorem State.busResetAction_trailerAux (s : State) (g : BitVec 8) : (s.busResetAction g).trailerAux = s.trailerAux := rfl
@[simp] theorem State.busResetAction_phase (s : State) (g : BitVec 8) : (s.busResetAction g).phase = s.phase := rfl
@[simp] theorem State.busResetAction_inflight (s : State) (g : BitVec 8) : (s.busResetAction g).inflight = s.inflight := rfl
@[simp] theorem State.busResetAction_diagLog (s : State) (g : BitVec 8) : (s.busResetAction g).diagLog = s.diagLog := rfl
@[simp] theorem State.busResetAction_out (s : State) (g : BitVec 8) : (s.busResetAction g).out = s.out := rfl
@[simp] theorem State.busResetAction_input (s : State) (g : BitVec 8) : (s.busResetAction g).input = s.input := rfl
@[simp] theorem State.busResetAction_drawCount (s : State) (g : BitVec 8) : (s.busResetAction g).drawCount = s.drawCount := rfl
@[simp] theorem State.busResetAction_slot (s : State) (g : BitVec 8) (c : BoardId) : (s.busResetAction g).slot c = s.slot c := rfl
@[simp] theorem State.busResetAction_boardAt (s : State) (g : BitVec 8) (m : NodeId) : (s.busResetAction g).boardAt m = s.boardAt m := rfl

/-! ### `State.countDraw` -/

@[simp] theorem State.countDraw_slots (s : State) : (s.countDraw).slots = s.slots := rfl
@[simp] theorem State.countDraw_node2board (s : State) : (s.countDraw).node2board = s.node2board := rfl
@[simp] theorem State.countDraw_inUseMask (s : State) : (s.countDraw).inUseMask = s.inUseMask := rfl
@[simp] theorem State.countDraw_numBoards (s : State) : (s.countDraw).numBoards = s.numBoards := rfl
@[simp] theorem State.countDraw_portState (s : State) : (s.countDraw).portState = s.portState := rfl
@[simp] theorem State.countDraw_mode (s : State) : (s.countDraw).mode = s.mode := rfl
@[simp] theorem State.countDraw_busGen (s : State) : (s.countDraw).busGen = s.busGen := rfl
@[simp] theorem State.countDraw_staleMap (s : State) : (s.countDraw).staleMap = s.staleMap := rfl
@[simp] theorem State.countDraw_tl (s : State) : (s.countDraw).tl = s.tl := rfl
@[simp] theorem State.countDraw_bcSeq (s : State) : (s.countDraw).bcSeq = s.bcSeq := rfl
@[simp] theorem State.countDraw_rxTimeout (s : State) : (s.countDraw).rxTimeout = s.rxTimeout := rfl
@[simp] theorem State.countDraw_noForward (s : State) : (s.countDraw).noForward = s.noForward := rfl
@[simp] theorem State.countDraw_recvTicks (s : State) : (s.countDraw).recvTicks = s.recvTicks := rfl
@[simp] theorem State.countDraw_totalTicks (s : State) : (s.countDraw).totalTicks = s.totalTicks := rfl
@[simp] theorem State.countDraw_trailerFlags (s : State) : (s.countDraw).trailerFlags = s.trailerFlags := rfl
@[simp] theorem State.countDraw_trailerAux (s : State) : (s.countDraw).trailerAux = s.trailerAux := rfl
@[simp] theorem State.countDraw_phase (s : State) : (s.countDraw).phase = s.phase := rfl
@[simp] theorem State.countDraw_inflight (s : State) : (s.countDraw).inflight = s.inflight := rfl
@[simp] theorem State.countDraw_diagLog (s : State) : (s.countDraw).diagLog = s.diagLog := rfl
@[simp] theorem State.countDraw_out (s : State) : (s.countDraw).out = s.out := rfl
@[simp] theorem State.countDraw_input (s : State) : (s.countDraw).input = s.input := rfl
@[simp] theorem State.countDraw_drawCount (s : State) : (s.countDraw).drawCount = s.drawCount + 1 := rfl
@[simp] theorem State.countDraw_slot (s : State) (c : BoardId) : (s.countDraw).slot c = s.slot c := rfl
@[simp] theorem State.countDraw_boardAt (s : State) (m : NodeId) : (s.countDraw).boardAt m = s.boardAt m := rfl

/-! ### `State.clearMap` -/

@[simp] theorem State.clearMap_inUseMask (s : State) : (s.clearMap).inUseMask = s.inUseMask := rfl
@[simp] theorem State.clearMap_numBoards (s : State) : (s.clearMap).numBoards = s.numBoards := rfl
@[simp] theorem State.clearMap_portState (s : State) : (s.clearMap).portState = s.portState := rfl
@[simp] theorem State.clearMap_mode (s : State) : (s.clearMap).mode = s.mode := rfl
@[simp] theorem State.clearMap_busGen (s : State) : (s.clearMap).busGen = s.busGen := rfl
@[simp] theorem State.clearMap_staleMap (s : State) : (s.clearMap).staleMap = s.staleMap := rfl
@[simp] theorem State.clearMap_tl (s : State) : (s.clearMap).tl = s.tl := rfl
@[simp] theorem State.clearMap_bcSeq (s : State) : (s.clearMap).bcSeq = s.bcSeq := rfl
@[simp] theorem State.clearMap_rxTimeout (s : State) : (s.clearMap).rxTimeout = s.rxTimeout := rfl
@[simp] theorem State.clearMap_noForward (s : State) : (s.clearMap).noForward = s.noForward := rfl
@[simp] theorem State.clearMap_recvTicks (s : State) : (s.clearMap).recvTicks = s.recvTicks := rfl
@[simp] theorem State.clearMap_totalTicks (s : State) : (s.clearMap).totalTicks = s.totalTicks := rfl
@[simp] theorem State.clearMap_trailerFlags (s : State) : (s.clearMap).trailerFlags = s.trailerFlags := rfl
@[simp] theorem State.clearMap_trailerAux (s : State) : (s.clearMap).trailerAux = s.trailerAux := rfl
@[simp] theorem State.clearMap_phase (s : State) : (s.clearMap).phase = s.phase := rfl
@[simp] theorem State.clearMap_inflight (s : State) : (s.clearMap).inflight = s.inflight := rfl
@[simp] theorem State.clearMap_diagLog (s : State) : (s.clearMap).diagLog = s.diagLog := rfl
@[simp] theorem State.clearMap_out (s : State) : (s.clearMap).out = s.out := rfl
@[simp] theorem State.clearMap_input (s : State) : (s.clearMap).input = s.input := rfl
@[simp] theorem State.clearMap_drawCount (s : State) : (s.clearMap).drawCount = s.drawCount := rfl

/-! ### The register files, one entry at a time -/

theorem State.setSlot_slot (s : State) (b : BoardId) (x : Slot) (c : BoardId) :
    (s.setSlot b x).slot c = if c = b then x else s.slot c := by
  simp only [State.slot, State.setSlot, Fin.getElem_fin, Vector.getElem_set, Fin.ext_iff, eq_comm]

theorem State.setBoardAt_boardAt (s : State) (n : NodeId) (b : Option BoardId) (m : NodeId) :
    (s.setBoardAt n b).boardAt m = if m = n then b else s.boardAt m := by
  simp only [State.boardAt, State.setBoardAt, Fin.getElem_fin, Vector.getElem_set, Fin.ext_iff, eq_comm]

@[simp] theorem State.setSlot_slot_same (s : State) (b : BoardId) (x : Slot) : (s.setSlot b x).slot b = x := by
  simp [State.setSlot_slot]

@[simp] theorem State.setBoardAt_same (s : State) (n : NodeId) (b : Option BoardId) :
    (s.setBoardAt n b).boardAt n = b := by
  simp [State.setBoardAt_boardAt]

theorem State.setNode_slot (s : State) (b : BoardId) (n : Option NodeId) (c : BoardId) :
    (s.setNode b n).slot c = if c = b then { s.slot b with node := n } else s.slot c :=
  State.setSlot_slot ..

theorem State.clearMap_slot (s : State) (c : BoardId) : s.clearMap.slot c = { s.slot c with node := none } := by
  simp [State.slot, State.clearMap, Vector.getElem_mk]

@[simp] theorem State.clearMap_boardAt (s : State) (m : NodeId) : s.clearMap.boardAt m = none := by
  simp [State.boardAt, State.clearMap]

@[simp] theorem State.setNode_present (s : State) (b : BoardId) (n : Option NodeId) (c : BoardId) :
    ((s.setNode b n).slot c).present = (s.slot c).present := by
  rw [State.setNode_slot]; split <;> simp_all

theorem State.setNode_node (s : State) (b : BoardId) (n : Option NodeId) (c : BoardId) :
    ((s.setNode b n).slot c).node = if c = b then n else (s.slot c).node := by
  rw [State.setNode_slot]; split <;> simp_all

/-- Two slots' tables agree when they agree entry by entry. -/
theorem State.slots_ext (s t : State) (h : ∀ c, s.slot c = t.slot c) : s.slots = t.slots :=
  Vector.ext fun i hi => h ⟨i, hi⟩

/-- Two node maps agree when they agree entry by entry. -/
theorem State.node2board_ext (s t : State) (h : ∀ m, s.boardAt m = t.boardAt m) : s.node2board = t.node2board :=
  Vector.ext fun i hi => h ⟨i, hi⟩

end Sys2Proof.Machine
end

