-- ==== Sys2Proof/Laws/Ops.lean ====
section
/-! SUPPORT. The shared operations, each with the lemmas that say everything it can do: the operand checks (what
they answer, and what follows when they answer a next state), the lookup, the table operations entry by entry, the
capability updates, and the judging of a response. -/

namespace Sys2Proof.Machine

/-! ### Operands -/

theorem boardOf_eq_some {b : Byte} {x : BoardId} : boardOf b = some x ↔ b.toNat = x.val := by
  unfold boardOf
  split
  · simp [Fin.ext_iff]
  · have := x.isLt; simp; omega

theorem boardOf_eq_none {b : Byte} : boardOf b = none ↔ 16 ≤ b.toNat := by
  unfold boardOf
  split <;> simp <;> omega

theorem nodeOf_eq_some {n : Byte} {x : NodeId} : nodeOf n = some x ↔ n.toNat = x.val := by
  unfold nodeOf
  split
  · simp [Fin.ext_iff]
  · have := x.isLt; simp; omega

theorem nodeOf_eq_none {n : Byte} : nodeOf n = none ↔ 63 ≤ n.toNat := by
  unfold nodeOf
  split <;> simp <;> omega

/-- A board id, as the 8-bit operand that names it. -/
theorem toNat_ofBoard (b : BoardId) : (BitVec.ofNat 8 b.val).toNat = b.val := by
  simp [Nat.mod_eq_of_lt (show b.val < 256 by omega)]

@[simp] theorem boardOf_ofBoard (b : BoardId) : boardOf (BitVec.ofNat 8 b.val) = some b :=
  boardOf_eq_some.2 (toNat_ofBoard b)

/-- A node id, as the 8-bit operand that names it. -/
theorem toNat_ofNode (n : NodeId) : (BitVec.ofNat 8 n.val).toNat = n.val := by
  simp [Nat.mod_eq_of_lt (show n.val < 256 by omega)]

theorem nodeOf_eq_some_iff_eq {x : Byte} {n : NodeId} : nodeOf x = some n ↔ x = BitVec.ofNat 8 n.val := by
  rw [nodeOf_eq_some, BitVec.toNat_eq, toNat_ofNode]

theorem legalLength_iff (l : Nat) : legalLength l = true ↔ 0 < l ∧ l % 4 = 0 ∧ l ≤ 65532 := by
  simp [legalLength, and_assoc]

/-! ### The checks, when they pass and when they do not -/

theorem whenIdle_idle {s : State} (h : s.phase = .idle) (k : StepOutcome) : whenIdle s k = k := if_pos h

theorem whenIdle_busy {s : State} (h : s.phase ≠ .idle) (k : StepOutcome) : whenIdle s k = answer s .busy := if_neg h

theorem withBoard_of {b : Byte} {x : BoardId} (h : b.toNat = x.val) (s : State) (k : BoardId → StepOutcome) :
    withBoard s b k = k x := by
  simp [withBoard, boardOf_eq_some.2 h]

theorem withBoard_outOfRange {b : Byte} (h : 16 ≤ b.toNat) (s : State) (k : BoardId → StepOutcome) :
    withBoard s b k = answer s .outOfRange := by
  simp [withBoard, boardOf_eq_none.2 h]

theorem withNode_of {n : Byte} {x : NodeId} (h : n.toNat = x.val) (s : State) (k : NodeId → StepOutcome) :
    withNode s n k = k x := by
  simp [withNode, nodeOf_eq_some.2 h]

theorem withNode_outOfRange {n : Byte} (h : 63 ≤ n.toNat) (s : State) (k : NodeId → StepOutcome) :
    withNode s n k = answer s .outOfRange := by
  simp [withNode, nodeOf_eq_none.2 h]

theorem whenRegistered_of {s : State} {b : BoardId} (h : (s.slot b).present = true) (k : StepOutcome) :
    whenRegistered s b k = k := if_pos h

theorem whenRegistered_empty {s : State} {b : BoardId} (h : (s.slot b).present = false) (k : StepOutcome) :
    whenRegistered s b k = answer s .notFound := if_neg (by simp [h])

theorem whenLength_of {l : Nat} (h : 0 < l ∧ l % 4 = 0 ∧ l ≤ 65532) (s : State) (k : StepOutcome) :
    whenLength s l k = k := if_pos ((legalLength_iff l).2 h)

theorem whenLength_illegal {l : Nat} (h : l = 0 ∨ l % 4 ≠ 0 ∨ 65532 < l) (s : State) (k : StepOutcome) :
    whenLength s l k = answer s .invalidLength :=
  if_neg (by rw [legalLength_iff]; omega)

theorem unlessClosed_open {s : State} (h : s.portState ≠ .closed) (k : StepOutcome) : unlessClosed s k = k := if_neg h

theorem unlessClosed_closed {s : State} (h : s.portState = .closed) (k : StepOutcome) :
    unlessClosed s k = answer s .notOperational := if_pos h

theorem whenOperational_of {s : State} (h : s.portState = .operational) (k : StepOutcome) :
    whenOperational s k = k := by
  simp [whenOperational, h]

theorem whenOperational_faulted {s : State} (h : s.portState = .faulted) (k : StepOutcome) :
    whenOperational s k = answer s .transportFailure := by
  simp [whenOperational, h]

theorem whenOperational_not {s : State} (h : s.portState = .constructed ∨ s.portState = .closed) (k : StepOutcome) :
    whenOperational s k = answer s .notOperational := by
  rcases h with h | h <;> simp [whenOperational, h]

/-! ### The checks, when they answer a next state -/

theorem whenIdle_next {s t : State} {k : StepOutcome} (h : whenIdle s k = .next t) :
    (s.phase ≠ .idle ∧ t = s.result .busy) ∨ (s.phase = .idle ∧ k = .next t) := by
  unfold whenIdle at h
  split at h
  · exact .inr ⟨‹_›, h⟩
  · exact .inl ⟨‹_›, by simpa [answer] using h.symm⟩

theorem withBoard_next {s t : State} {b : Byte} {k : BoardId → StepOutcome} (h : withBoard s b k = .next t) :
    t = s.result .outOfRange ∨ ∃ x : BoardId, b.toNat = x.val ∧ k x = .next t := by
  unfold withBoard at h
  split at h
  · next x hx => exact .inr ⟨x, boardOf_eq_some.1 hx, h⟩
  · exact .inl (by simpa [answer] using h.symm)

theorem withNode_next {s t : State} {n : Byte} {k : NodeId → StepOutcome} (h : withNode s n k = .next t) :
    t = s.result .outOfRange ∨ ∃ x : NodeId, n.toNat = x.val ∧ k x = .next t := by
  unfold withNode at h
  split at h
  · next x hx => exact .inr ⟨x, nodeOf_eq_some.1 hx, h⟩
  · exact .inl (by simpa [answer] using h.symm)

theorem whenRegistered_next {s t : State} {b : BoardId} {k : StepOutcome} (h : whenRegistered s b k = .next t) :
    t = s.result .notFound ∨ ((s.slot b).present = true ∧ k = .next t) := by
  unfold whenRegistered at h
  split at h
  · exact .inr ⟨‹_›, h⟩
  · exact .inl (by simpa [answer] using h.symm)

theorem whenLength_next {s t : State} {l : Nat} {k : StepOutcome} (h : whenLength s l k = .next t) :
    t = s.result .invalidLength ∨ (legalLength l = true ∧ k = .next t) := by
  unfold whenLength at h
  split at h
  · exact .inr ⟨‹_›, h⟩
  · exact .inl (by simpa [answer] using h.symm)

theorem unlessClosed_next {s t : State} {k : StepOutcome} (h : unlessClosed s k = .next t) :
    t = s.result .notOperational ∨ (s.portState ≠ .closed ∧ k = .next t) := by
  unfold unlessClosed at h
  split at h
  · exact .inl (by simpa [answer] using h.symm)
  · exact .inr ⟨‹_›, h⟩

theorem whenOperational_next {s t : State} {k : StepOutcome} (h : whenOperational s k = .next t) :
    t = s.result .transportFailure ∨ t = s.result .notOperational ∨ (s.portState = .operational ∧ k = .next t) := by
  unfold whenOperational at h
  split at h
  · exact .inr (.inr ⟨‹_›, h⟩)
  · exact .inl (by simpa [answer] using h.symm)
  all_goals exact .inr (.inl (by simpa [answer] using h.symm))

theorem whenAllowed_next {s t : State} {a : Bool} {k : StepOutcome} (h : whenAllowed s a k = .next t) :
    t = s.result .protocolUnsupported ∨ (a = true ∧ k = .next t) := by
  unfold whenAllowed at h
  split at h
  · exact .inr ⟨‹_›, h⟩
  · exact .inl (by simpa [answer] using h.symm)

/-! ### The lookup and the frame that goes out -/

theorem State.lookup_fresh {s : State} (h : ¬ (s.staleMap = true ∧ s.portState = .operational)) (p : Pending)
    (k : State → State) : s.lookup p k = k s := if_neg h

theorem State.lookup_stale {s : State} (h : s.staleMap = true) (h' : s.portState = .operational) (p : Pending)
    (k : State → State) :
    s.lookup p k =
      { s with staleMap := false, inflight := some (Inflight.held p), phase := .waitReval }.emit .revalidate :=
  if_pos ⟨h, h'⟩

theorem State.sendUnicast_mapped {s : State} {b : BoardId} {n : NodeId} (h : (s.slot b).node = some n) (p : Pending)
    (c : Config.Functions) : s.sendUnicast p b c = s.sendRequest p (nodeNum n) c := by
  simp [State.sendUnicast, h]

theorem State.sendUnicast_unmapped {s : State} {b : BoardId} (h : (s.slot b).node = none) (p : Pending)
    (c : Config.Functions) : s.sendUnicast p b c =
      (s.logEntry { reason := .noNode, op := p.op, board := some b, tl := some s.tl }).finish .notFound := by
  simp [State.sendUnicast, h]

/-- Nothing in flight: ending a command is only delivering its result. -/
theorem State.finish_idle {s : State} (h : s.phase = .idle) (h' : s.inflight = none) (r : Result) :
    s.finish r = s.result r := by
  cases s; simp_all [State.finish]

/-! ### The node tables, entry by entry -/

theorem State.freeNodeOf_tables (s : State) (b : BoardId) :
    s.freeNodeOf b = { s with node2board := (s.freeNodeOf b).node2board } := by
  unfold State.freeNodeOf; split <;> rfl

@[simp] theorem State.freeNodeOf_slot (s : State) (b c : BoardId) : (s.freeNodeOf b).slot c = s.slot c := by
  rw [State.freeNodeOf_tables]; rfl

theorem State.freeNodeOf_boardAt (s : State) (b : BoardId) (m : NodeId) :
    (s.freeNodeOf b).boardAt m = if (s.slot b).node = some m then none else s.boardAt m := by
  unfold State.freeNodeOf
  split
  · next n h => simp [State.setBoardAt_boardAt, h, eq_comm]
  · next h => simp [h]

theorem State.unassign_tables (s : State) (b : BoardId) :
    s.unassign b = { s with slots := (s.unassign b).slots, node2board := (s.unassign b).node2board } := by
  unfold State.unassign; rw [State.freeNodeOf_tables]; rfl

theorem State.unassign_slot (s : State) (b c : BoardId) :
    (s.unassign b).slot c = if c = b then { s.slot b with node := none } else s.slot c := by
  simp [State.unassign, State.setNode_slot]

theorem State.unassign_boardAt (s : State) (b : BoardId) (m : NodeId) :
    (s.unassign b).boardAt m = if (s.slot b).node = some m then none else s.boardAt m := by
  simp [State.unassign, State.freeNodeOf_boardAt]

theorem State.stealNode_tables (s : State) (n : NodeId) (b : BoardId) :
    s.stealNode n b = { s with slots := (s.stealNode n b).slots } := by
  unfold State.stealNode
  split
  · split <;> rfl
  · rfl

@[simp] theorem State.stealNode_boardAt (s : State) (n : NodeId) (b : BoardId) (m : NodeId) :
    (s.stealNode n b).boardAt m = s.boardAt m := by
  rw [State.stealNode_tables]; rfl

theorem State.stealNode_slot (s : State) (n : NodeId) (b c : BoardId) :
    (s.stealNode n b).slot c =
      if s.boardAt n = some c ∧ c ≠ b then { s.slot c with node := none } else s.slot c := by
  unfold State.stealNode
  split
  · next b0 h =>
    split
    · next hb => subst hb; simp [h]; intro hc hn; exact absurd hc.symm hn
    · next hb =>
      rw [State.setNode_slot, h]
      by_cases hc : c = b0
      · subst hc; simp [hb]
      · simp [hc, Ne.symm hc]
  · next h => simp [h]

theorem State.assign_tables (s : State) (b : BoardId) (n : NodeId) :
    s.assign b n = { s with slots := (s.assign b n).slots, node2board := (s.assign b n).node2board } := rfl

theorem State.assign_slot (s : State) (b : BoardId) (n : NodeId) (c : BoardId) :
    (s.assign b n).slot c = if c = b then { s.slot b with node := some n } else s.slot c := by
  simp [State.assign, State.setNode_slot]

theorem State.assign_boardAt (s : State) (b : BoardId) (n m : NodeId) :
    (s.assign b n).boardAt m = if m = n then some b else s.boardAt m := by
  simp [State.assign, State.setBoardAt_boardAt]

theorem State.mapNode_tables (s : State) (b : BoardId) (n : NodeId) :
    s.mapNode b n = { s with slots := (s.mapNode b n).slots, node2board := (s.mapNode b n).node2board } := by
  unfold State.mapNode
  rw [State.assign_tables, State.stealNode_tables, State.freeNodeOf_tables]

/-- R99 steps 5 to 7, for maps that are inverses: the newest assignment wins. -/
theorem State.mapNode_slot {s : State} (h : MapsInverse s) (b : BoardId) (n : NodeId) (c : BoardId) :
    (s.mapNode b n).slot c = { s.slot c with node :=
      (if c = b then some n else if (s.slot c).node = some n then none else (s.slot c).node) } := by
  simp only [State.mapNode, State.assign_slot, State.stealNode_slot, State.freeNodeOf_slot, State.freeNodeOf_boardAt]
  by_cases hc : c = b
  · subst hc; simp
  · have hcn := h c n
    have hbn := h b n
    by_cases hn : (s.slot c).node = some n
    · have h1 := hcn.1 hn
      have h2 : (s.slot b).node ≠ some n := fun hb => hc (by simpa [h1] using hbn.1 hb)
      simp [hc, hn, h1, h2]
    · have h1 : s.boardAt n ≠ some c := fun hb => hn (hcn.2 hb)
      simp [hc, hn, h1]

theorem State.mapNode_boardAt (s : State) (b : BoardId) (n m : NodeId) :
    (s.mapNode b n).boardAt m =
      if m = n then some b else if (s.slot b).node = some m then none else s.boardAt m := by
  simp [State.mapNode, State.assign_boardAt, State.freeNodeOf_boardAt]

theorem State.register_slot (s : State) (b : BoardId) (fw : Quadlet) (cap : Bool) (c : BoardId) :
    (s.register b fw cap).slot c =
      if c = b then { s.slot b with present := true, fwVersion := fw, bcCapable := cap } else s.slot c :=
  State.setSlot_slot ..

theorem State.unregister_slot (s : State) (b c : BoardId) :
    (s.unregister b).slot c = if c = b then { s.slot b with present := false, node := none } else s.slot c := by
  show ((s.unassign b).setSlot b { (s.unassign b).slot b with present := false }).slot c = _
  simp only [State.setSlot_slot, State.unassign_slot]
  split <;> simp

theorem State.unregister_boardAt (s : State) (b : BoardId) (m : NodeId) :
    (s.unregister b).boardAt m = if (s.slot b).node = some m then none else s.boardAt m :=
  State.unassign_boardAt ..

/-- A bit of the in-use mask after `ADD_BOARD`. -/
theorem setBit_getLsbD (m : BitVec 16) (b c : BoardId) :
    (m ||| BitVec.twoPow 16 b.val).getLsbD c.val = if c = b then true else m.getLsbD c.val := by
  simp only [BitVec.getLsbD_or, BitVec.getLsbD_twoPow, Fin.ext_iff, eq_comm (a := b.val)]
  split <;> simp_all

/-- A bit of the in-use mask after `REMOVE_BOARD`. -/
theorem clearBit_getLsbD (m : BitVec 16) (b c : BoardId) :
    (m &&& ~~~ BitVec.twoPow 16 b.val).getLsbD c.val = if c = b then false else m.getLsbD c.val := by
  simp only [BitVec.getLsbD_and, BitVec.getLsbD_not, BitVec.getLsbD_twoPow, Fin.ext_iff, eq_comm (a := b.val)]
  split <;> simp_all

theorem State.installOne_tables (m : RevalMap) (s : State) (b : BoardId) :
    State.installOne m s b =
      { s with slots := (State.installOne m s b).slots, node2board := (State.installOne m s b).node2board } := by
  unfold State.installOne
  split
  · split
    · exact State.assign_tables ..
    · rfl
  · rfl

theorem State.installFold_tables (m : RevalMap) (l : List BoardId) (s : State) :
    l.foldl (State.installOne m) s =
      { s with
        slots := (l.foldl (State.installOne m) s).slots
        node2board := (l.foldl (State.installOne m) s).node2board } := by
  induction l generalizing s with
  | nil => rfl
  | cons b l ih => rw [List.foldl_cons, ih]; rw [State.installOne_tables]

theorem State.installMap_tables (s : State) (m : RevalMap) :
    s.installMap m = { s with slots := (s.installMap m).slots, node2board := (s.installMap m).node2board } := by
  have h := State.installFold_tables m (List.finRange 16) s.clearMap
  unfold State.installMap
  generalize List.foldl (State.installOne m) s.clearMap (List.finRange 16) = r at h ⊢
  exact h

/-! ### The capability updates -/

theorem State.drawCap_slot (s : State) (d : Config.CapDraw) (b c : BoardId) :
    (s.drawCap d b).slot c = if c = b then { s.slot b with bcCapable := drawn d (s.slot b).bcCapable } else s.slot c :=
  State.setSlot_slot ..

theorem State.drawCapIfRegistered_tables (s : State) (d : Config.CapDraw) (b : BoardId) :
    s.drawCapIfRegistered d b = { s with slots := (s.drawCapIfRegistered d b).slots } := by
  unfold State.drawCapIfRegistered; split <;> rfl

theorem State.drawCapIfRegistered_slot (s : State) (d : Config.CapDraw) (b c : BoardId) :
    (s.drawCapIfRegistered d b).slot c =
      if c = b ∧ (s.slot b).present = true
      then { s.slot b with bcCapable := drawn d (s.slot b).bcCapable } else s.slot c := by
  unfold State.drawCapIfRegistered
  split
  · next h => simp [State.drawCap_slot, h]
  · next h => simp [h]

theorem State.drawFold_tables (draw : BoardId → Config.CapDraw) (l : List BoardId) (s : State) :
    l.foldl (fun s b => s.drawCapIfRegistered (draw b) b) s =
      { s with slots := (l.foldl (fun s b => s.drawCapIfRegistered (draw b) b) s).slots } := by
  induction l generalizing s with
  | nil => rfl
  | cons b l ih => rw [List.foldl_cons, ih]; rw [State.drawCapIfRegistered_tables]

theorem State.drawFold_slot (draw : BoardId → Config.CapDraw) (l : List BoardId) (hl : l.Nodup) (s : State)
    (c : BoardId) :
    (l.foldl (fun s b => s.drawCapIfRegistered (draw b) b) s).slot c =
      if c ∈ l ∧ (s.slot c).present = true
      then { s.slot c with bcCapable := drawn (draw c) (s.slot c).bcCapable } else s.slot c := by
  induction l generalizing s with
  | nil => simp
  | cons b l ih =>
    obtain ⟨hb, hl⟩ := List.nodup_cons.1 hl
    rw [List.foldl_cons, ih hl]
    simp only [State.drawCapIfRegistered_slot, List.mem_cons]
    by_cases hcb : c = b
    · subst hcb; simp [hb]
    · simp [hcb]

/-- R133 for a broadcast response: every registered board, each by its own draw. -/
theorem State.capUpdateAllWith_slot (s : State) (draw : BoardId → Config.CapDraw) (c : BoardId) :
    (s.capUpdateAllWith .envDraw draw).slot c =
      if (s.slot c).present = true
      then { s.slot c with bcCapable := drawn (draw c) (s.slot c).bcCapable } else s.slot c := by
  simp [State.capUpdateAllWith, State.drawFold_slot _ _ (List.nodup_finRange 16)]

theorem State.capUpdate_eq (s : State) (b : BoardId) :
    s.capUpdate b = { s with
      slots := s.slots.set b.val
        { s.slot b with bcCapable := drawn (Config.capDraw s.drawCount b) (s.slot b).bcCapable } b.isLt
      drawCount := s.drawCount + 1 } := rfl

theorem State.capUpdateAll_eq (s : State) :
    s.capUpdateAll = { s with slots := s.capUpdateAll.slots, drawCount := s.drawCount + 1 } := by
  show State.countDraw _ = _
  rw [State.drawFold_tables]; rfl

theorem State.capUpdate_slot (s : State) (b c : BoardId) :
    (s.capUpdate b).slot c =
      if c = b then { s.slot b with bcCapable := drawn (Config.capDraw s.drawCount b) (s.slot b).bcCapable }
      else s.slot c :=
  State.drawCap_slot ..

theorem State.capUpdateAll_slot (s : State) (c : BoardId) :
    s.capUpdateAll.slot c =
      if (s.slot c).present = true
      then { s.slot c with bcCapable := drawn (Config.capDraw s.drawCount c) (s.slot c).bcCapable } else s.slot c :=
  State.capUpdateAllWith_slot ..

/-! ### The aggregate -/

theorem State.bcAll_iff (s : State) :
    s.bcAll = true ↔ ∀ b, (s.slot b).present = true → (s.slot b).bcCapable = true := by
  simp only [State.bcAll, List.all_eq_true, Vector.mem_toList_iff, Bool.or_eq_true, Bool.not_eq_true']
  constructor
  · intro h b hb
    simpa [hb] using h (s.slot b) (Vector.getElem_mem b.isLt)
  · intro h x hx
    obtain ⟨i, hi, rfl⟩ := Vector.mem_iff_getElem.1 hx
    have := h ⟨i, hi⟩
    simp only [State.slot, Fin.getElem_fin] at this
    cases hp : (s.slots[i]).present <;> simp_all

/-! ### `State.unassign`: no field but the two tables -/

@[simp] theorem State.unassign_inUseMask (s : State) (b : BoardId) : (s.unassign b).inUseMask = s.inUseMask := by
  rw [State.unassign_tables]
@[simp] theorem State.unassign_numBoards (s : State) (b : BoardId) : (s.unassign b).numBoards = s.numBoards := by
  rw [State.unassign_tables]
@[simp] theorem State.unassign_portState (s : State) (b : BoardId) : (s.unassign b).portState = s.portState := by
  rw [State.unassign_tables]
@[simp] theorem State.unassign_mode (s : State) (b : BoardId) : (s.unassign b).mode = s.mode := by
  rw [State.unassign_tables]
@[simp] theorem State.unassign_busGen (s : State) (b : BoardId) : (s.unassign b).busGen = s.busGen := by
  rw [State.unassign_tables]
@[simp] theorem State.unassign_staleMap (s : State) (b : BoardId) : (s.unassign b).staleMap = s.staleMap := by
  rw [State.unassign_tables]
@[simp] theorem State.unassign_tl (s : State) (b : BoardId) : (s.unassign b).tl = s.tl := by
  rw [State.unassign_tables]
@[simp] theorem State.unassign_bcSeq (s : State) (b : BoardId) : (s.unassign b).bcSeq = s.bcSeq := by
  rw [State.unassign_tables]
@[simp] theorem State.unassign_rxTimeout (s : State) (b : BoardId) : (s.unassign b).rxTimeout = s.rxTimeout := by
  rw [State.unassign_tables]
@[simp] theorem State.unassign_noForward (s : State) (b : BoardId) : (s.unassign b).noForward = s.noForward := by
  rw [State.unassign_tables]
@[simp] theorem State.unassign_recvTicks (s : State) (b : BoardId) : (s.unassign b).recvTicks = s.recvTicks := by
  rw [State.unassign_tables]
@[simp] theorem State.unassign_totalTicks (s : State) (b : BoardId) : (s.unassign b).totalTicks = s.totalTicks := by
  rw [State.unassign_tables]
@[simp] theorem State.unassign_trailerFlags (s : State) (b : BoardId) : (s.unassign b).trailerFlags = s.trailerFlags := by
  rw [State.unassign_tables]
@[simp] theorem State.unassign_trailerAux (s : State) (b : BoardId) : (s.unassign b).trailerAux = s.trailerAux := by
  rw [State.unassign_tables]
@[simp] theorem State.unassign_phase (s : State) (b : BoardId) : (s.unassign b).phase = s.phase := by
  rw [State.unassign_tables]
@[simp] theorem State.unassign_inflight (s : State) (b : BoardId) : (s.unassign b).inflight = s.inflight := by
  rw [State.unassign_tables]
@[simp] theorem State.unassign_diagLog (s : State) (b : BoardId) : (s.unassign b).diagLog = s.diagLog := by
  rw [State.unassign_tables]
@[simp] theorem State.unassign_out (s : State) (b : BoardId) : (s.unassign b).out = s.out := by
  rw [State.unassign_tables]
@[simp] theorem State.unassign_input (s : State) (b : BoardId) : (s.unassign b).input = s.input := by
  rw [State.unassign_tables]
@[simp] theorem State.unassign_drawCount (s : State) (b : BoardId) : (s.unassign b).drawCount = s.drawCount := by
  rw [State.unassign_tables]

/-! ### `State.mapNode`: no field but the two tables -/

@[simp] theorem State.mapNode_inUseMask (s : State) (b : BoardId) (n : NodeId) : (s.mapNode b n).inUseMask = s.inUseMask := by
  rw [State.mapNode_tables]
@[simp] theorem State.mapNode_numBoards (s : State) (b : BoardId) (n : NodeId) : (s.mapNode b n).numBoards = s.numBoards := by
  rw [State.mapNode_tables]
@[simp] theorem State.mapNode_portState (s : State) (b : BoardId) (n : NodeId) : (s.mapNode b n).portState = s.portState := by
  rw [State.mapNode_tables]
@[simp] theorem State.mapNode_mode (s : State) (b : BoardId) (n : NodeId) : (s.mapNode b n).mode = s.mode := by
  rw [State.mapNode_tables]
@[simp] theorem State.mapNode_busGen (s : State) (b : BoardId) (n : NodeId) : (s.mapNode b n).busGen = s.busGen := by
  rw [State.mapNode_tables]
@[simp] theorem State.mapNode_staleMap (s : State) (b : BoardId) (n : NodeId) : (s.mapNode b n).staleMap = s.staleMap := by
  rw [State.mapNode_tables]
@[simp] theorem State.mapNode_tl (s : State) (b : BoardId) (n : NodeId) : (s.mapNode b n).tl = s.tl := by
  rw [State.mapNode_tables]
@[simp] theorem State.mapNode_bcSeq (s : State) (b : BoardId) (n : NodeId) : (s.mapNode b n).bcSeq = s.bcSeq := by
  rw [State.mapNode_tables]
@[simp] theorem State.mapNode_rxTimeout (s : State) (b : BoardId) (n : NodeId) : (s.mapNode b n).rxTimeout = s.rxTimeout := by
  rw [State.mapNode_tables]
@[simp] theorem State.mapNode_noForward (s : State) (b : BoardId) (n : NodeId) : (s.mapNode b n).noForward = s.noForward := by
  rw [State.mapNode_tables]
@[simp] theorem State.mapNode_recvTicks (s : State) (b : BoardId) (n : NodeId) : (s.mapNode b n).recvTicks = s.recvTicks := by
  rw [State.mapNode_tables]
@[simp] theorem State.mapNode_totalTicks (s : State) (b : BoardId) (n : NodeId) : (s.mapNode b n).totalTicks = s.totalTicks := by
  rw [State.mapNode_tables]
@[simp] theorem State.mapNode_trailerFlags (s : State) (b : BoardId) (n : NodeId) : (s.mapNode b n).trailerFlags = s.trailerFlags := by
  rw [State.mapNode_tables]
@[simp] theorem State.mapNode_trailerAux (s : State) (b : BoardId) (n : NodeId) : (s.mapNode b n).trailerAux = s.trailerAux := by
  rw [State.mapNode_tables]
@[simp] theorem State.mapNode_phase (s : State) (b : BoardId) (n : NodeId) : (s.mapNode b n).phase = s.phase := by
  rw [State.mapNode_tables]
@[simp] theorem State.mapNode_inflight (s : State) (b : BoardId) (n : NodeId) : (s.mapNode b n).inflight = s.inflight := by
  rw [State.mapNode_tables]
@[simp] theorem State.mapNode_diagLog (s : State) (b : BoardId) (n : NodeId) : (s.mapNode b n).diagLog = s.diagLog := by
  rw [State.mapNode_tables]
@[simp] theorem State.mapNode_out (s : State) (b : BoardId) (n : NodeId) : (s.mapNode b n).out = s.out := by
  rw [State.mapNode_tables]
@[simp] theorem State.mapNode_input (s : State) (b : BoardId) (n : NodeId) : (s.mapNode b n).input = s.input := by
  rw [State.mapNode_tables]
@[simp] theorem State.mapNode_drawCount (s : State) (b : BoardId) (n : NodeId) : (s.mapNode b n).drawCount = s.drawCount := by
  rw [State.mapNode_tables]

/-! ### `State.installMap`: no field but the two tables -/

@[simp] theorem State.installMap_inUseMask (s : State) (m : RevalMap) : (s.installMap m).inUseMask = s.inUseMask := by
  rw [State.installMap_tables]
@[simp] theorem State.installMap_numBoards (s : State) (m : RevalMap) : (s.installMap m).numBoards = s.numBoards := by
  rw [State.installMap_tables]
@[simp] theorem State.installMap_portState (s : State) (m : RevalMap) : (s.installMap m).portState = s.portState := by
  rw [State.installMap_tables]
@[simp] theorem State.installMap_mode (s : State) (m : RevalMap) : (s.installMap m).mode = s.mode := by
  rw [State.installMap_tables]
@[simp] theorem State.installMap_busGen (s : State) (m : RevalMap) : (s.installMap m).busGen = s.busGen := by
  rw [State.installMap_tables]
@[simp] theorem State.installMap_staleMap (s : State) (m : RevalMap) : (s.installMap m).staleMap = s.staleMap := by
  rw [State.installMap_tables]
@[simp] theorem State.installMap_tl (s : State) (m : RevalMap) : (s.installMap m).tl = s.tl := by
  rw [State.installMap_tables]
@[simp] theorem State.installMap_bcSeq (s : State) (m : RevalMap) : (s.installMap m).bcSeq = s.bcSeq := by
  rw [State.installMap_tables]
@[simp] theorem State.installMap_rxTimeout (s : State) (m : RevalMap) : (s.installMap m).rxTimeout = s.rxTimeout := by
  rw [State.installMap_tables]
@[simp] theorem State.installMap_noForward (s : State) (m : RevalMap) : (s.installMap m).noForward = s.noForward := by
  rw [State.installMap_tables]
@[simp] theorem State.installMap_recvTicks (s : State) (m : RevalMap) : (s.installMap m).recvTicks = s.recvTicks := by
  rw [State.installMap_tables]
@[simp] theorem State.installMap_totalTicks (s : State) (m : RevalMap) : (s.installMap m).totalTicks = s.totalTicks := by
  rw [State.installMap_tables]
@[simp] theorem State.installMap_trailerFlags (s : State) (m : RevalMap) : (s.installMap m).trailerFlags = s.trailerFlags := by
  rw [State.installMap_tables]
@[simp] theorem State.installMap_trailerAux (s : State) (m : RevalMap) : (s.installMap m).trailerAux = s.trailerAux := by
  rw [State.installMap_tables]
@[simp] theorem State.installMap_phase (s : State) (m : RevalMap) : (s.installMap m).phase = s.phase := by
  rw [State.installMap_tables]
@[simp] theorem State.installMap_inflight (s : State) (m : RevalMap) : (s.installMap m).inflight = s.inflight := by
  rw [State.installMap_tables]
@[simp] theorem State.installMap_diagLog (s : State) (m : RevalMap) : (s.installMap m).diagLog = s.diagLog := by
  rw [State.installMap_tables]
@[simp] theorem State.installMap_out (s : State) (m : RevalMap) : (s.installMap m).out = s.out := by
  rw [State.installMap_tables]
@[simp] theorem State.installMap_input (s : State) (m : RevalMap) : (s.installMap m).input = s.input := by
  rw [State.installMap_tables]
@[simp] theorem State.installMap_drawCount (s : State) (m : RevalMap) : (s.installMap m).drawCount = s.drawCount := by
  rw [State.installMap_tables]

/-! ### `State.capUpdate`: no field but the slots and the draw counter -/

@[simp] theorem State.capUpdate_node2board (s : State) (b : BoardId) : (s.capUpdate b).node2board = s.node2board := by
  rw [State.capUpdate_eq]
@[simp] theorem State.capUpdate_inUseMask (s : State) (b : BoardId) : (s.capUpdate b).inUseMask = s.inUseMask := by
  rw [State.capUpdate_eq]
@[simp] theorem State.capUpdate_numBoards (s : State) (b : BoardId) : (s.capUpdate b).numBoards = s.numBoards := by
  rw [State.capUpdate_eq]
@[simp] theorem State.capUpdate_portState (s : State) (b : BoardId) : (s.capUpdate b).portState = s.portState := by
  rw [State.capUpdate_eq]
@[simp] theorem State.capUpdate_mode (s : State) (b : BoardId) : (s.capUpdate b).mode = s.mode := by
  rw [State.capUpdate_eq]
@[simp] theorem State.capUpdate_busGen (s : State) (b : BoardId) : (s.capUpdate b).busGen = s.busGen := by
  rw [State.capUpdate_eq]
@[simp] theorem State.capUpdate_staleMap (s : State) (b : BoardId) : (s.capUpdate b).staleMap = s.staleMap := by
  rw [State.capUpdate_eq]
@[simp] theorem State.capUpdate_tl (s : State) (b : BoardId) : (s.capUpdate b).tl = s.tl := by
  rw [State.capUpdate_eq]
@[simp] theorem State.capUpdate_bcSeq (s : State) (b : BoardId) : (s.capUpdate b).bcSeq = s.bcSeq := by
  rw [State.capUpdate_eq]
@[simp] theorem State.capUpdate_rxTimeout (s : State) (b : BoardId) : (s.capUpdate b).rxTimeout = s.rxTimeout := by
  rw [State.capUpdate_eq]
@[simp] theorem State.capUpdate_noForward (s : State) (b : BoardId) : (s.capUpdate b).noForward = s.noForward := by
  rw [State.capUpdate_eq]
@[simp] theorem State.capUpdate_recvTicks (s : State) (b : BoardId) : (s.capUpdate b).recvTicks = s.recvTicks := by
  rw [State.capUpdate_eq]
@[simp] theorem State.capUpdate_totalTicks (s : State) (b : BoardId) : (s.capUpdate b).totalTicks = s.totalTicks := by
  rw [State.capUpdate_eq]
@[simp] theorem State.capUpdate_trailerFlags (s : State) (b : BoardId) : (s.capUpdate b).trailerFlags = s.trailerFlags := by
  rw [State.capUpdate_eq]
@[simp] theorem State.capUpdate_trailerAux (s : State) (b : BoardId) : (s.capUpdate b).trailerAux = s.trailerAux := by
  rw [State.capUpdate_eq]
@[simp] theorem State.capUpdate_phase (s : State) (b : BoardId) : (s.capUpdate b).phase = s.phase := by
  rw [State.capUpdate_eq]
@[simp] theorem State.capUpdate_inflight (s : State) (b : BoardId) : (s.capUpdate b).inflight = s.inflight := by
  rw [State.capUpdate_eq]
@[simp] theorem State.capUpdate_diagLog (s : State) (b : BoardId) : (s.capUpdate b).diagLog = s.diagLog := by
  rw [State.capUpdate_eq]
@[simp] theorem State.capUpdate_out (s : State) (b : BoardId) : (s.capUpdate b).out = s.out := by
  rw [State.capUpdate_eq]
@[simp] theorem State.capUpdate_input (s : State) (b : BoardId) : (s.capUpdate b).input = s.input := by
  rw [State.capUpdate_eq]
@[simp] theorem State.capUpdate_boardAt (s : State) (b : BoardId) (m : NodeId) : (s.capUpdate b).boardAt m = s.boardAt m := by
  simp [State.boardAt]

/-! ### `State.capUpdateAll`: no field but the slots and the draw counter -/

@[simp] theorem State.capUpdateAll_node2board (s : State) : (s.capUpdateAll).node2board = s.node2board := by
  rw [State.capUpdateAll_eq]
@[simp] theorem State.capUpdateAll_inUseMask (s : State) : (s.capUpdateAll).inUseMask = s.inUseMask := by
  rw [State.capUpdateAll_eq]
@[simp] theorem State.capUpdateAll_numBoards (s : State) : (s.capUpdateAll).numBoards = s.numBoards := by
  rw [State.capUpdateAll_eq]
@[simp] theorem State.capUpdateAll_portState (s : State) : (s.capUpdateAll).portState = s.portState := by
  rw [State.capUpdateAll_eq]
@[simp] theorem State.capUpdateAll_mode (s : State) : (s.capUpdateAll).mode = s.mode := by
  rw [State.capUpdateAll_eq]
@[simp] theorem State.capUpdateAll_busGen (s : State) : (s.capUpdateAll).busGen = s.busGen := by
  rw [State.capUpdateAll_eq]
@[simp] theorem State.capUpdateAll_staleMap (s : State) : (s.capUpdateAll).staleMap = s.staleMap := by
  rw [State.capUpdateAll_eq]
@[simp] theorem State.capUpdateAll_tl (s : State) : (s.capUpdateAll).tl = s.tl := by
  rw [State.capUpdateAll_eq]
@[simp] theorem State.capUpdateAll_bcSeq (s : State) : (s.capUpdateAll).bcSeq = s.bcSeq := by
  rw [State.capUpdateAll_eq]
@[simp] theorem State.capUpdateAll_rxTimeout (s : State) : (s.capUpdateAll).rxTimeout = s.rxTimeout := by
  rw [State.capUpdateAll_eq]
@[simp] theorem State.capUpdateAll_noForward (s : State) : (s.capUpdateAll).noForward = s.noForward := by
  rw [State.capUpdateAll_eq]
@[simp] theorem State.capUpdateAll_recvTicks (s : State) : (s.capUpdateAll).recvTicks = s.recvTicks := by
  rw [State.capUpdateAll_eq]
@[simp] theorem State.capUpdateAll_totalTicks (s : State) : (s.capUpdateAll).totalTicks = s.totalTicks := by
  rw [State.capUpdateAll_eq]
@[simp] theorem State.capUpdateAll_trailerFlags (s : State) : (s.capUpdateAll).trailerFlags = s.trailerFlags := by
  rw [State.capUpdateAll_eq]
@[simp] theorem State.capUpdateAll_trailerAux (s : State) : (s.capUpdateAll).trailerAux = s.trailerAux := by
  rw [State.capUpdateAll_eq]
@[simp] theorem State.capUpdateAll_phase (s : State) : (s.capUpdateAll).phase = s.phase := by
  rw [State.capUpdateAll_eq]
@[simp] theorem State.capUpdateAll_inflight (s : State) : (s.capUpdateAll).inflight = s.inflight := by
  rw [State.capUpdateAll_eq]
@[simp] theorem State.capUpdateAll_diagLog (s : State) : (s.capUpdateAll).diagLog = s.diagLog := by
  rw [State.capUpdateAll_eq]
@[simp] theorem State.capUpdateAll_out (s : State) : (s.capUpdateAll).out = s.out := by
  rw [State.capUpdateAll_eq]
@[simp] theorem State.capUpdateAll_input (s : State) : (s.capUpdateAll).input = s.input := by
  rw [State.capUpdateAll_eq]
@[simp] theorem State.capUpdateAll_boardAt (s : State) (m : NodeId) : (s.capUpdateAll).boardAt m = s.boardAt m := by
  simp [State.boardAt]

/-! ### `State.register` -/

@[simp] theorem State.register_node2board (s : State) (b : BoardId) (fw : Quadlet) (cap : Bool) :
    (s.register b fw cap).node2board = s.node2board := rfl
@[simp] theorem State.register_inUseMask (s : State) (b : BoardId) (fw : Quadlet) (cap : Bool) :
    (s.register b fw cap).inUseMask = s.inUseMask ||| BitVec.twoPow 16 b.val := rfl
@[simp] theorem State.register_numBoards (s : State) (b : BoardId) (fw : Quadlet) (cap : Bool) :
    (s.register b fw cap).numBoards = s.numBoards + 1#32 := rfl
@[simp] theorem State.register_portState (s : State) (b : BoardId) (fw : Quadlet) (cap : Bool) :
    (s.register b fw cap).portState = s.portState := rfl
@[simp] theorem State.register_mode (s : State) (b : BoardId) (fw : Quadlet) (cap : Bool) :
    (s.register b fw cap).mode = s.mode := rfl
@[simp] theorem State.register_busGen (s : State) (b : BoardId) (fw : Quadlet) (cap : Bool) :
    (s.register b fw cap).busGen = s.busGen := rfl
@[simp] theorem State.register_staleMap (s : State) (b : BoardId) (fw : Quadlet) (cap : Bool) :
    (s.register b fw cap).staleMap = s.staleMap := rfl
@[simp] theorem State.register_tl (s : State) (b : BoardId) (fw : Quadlet) (cap : Bool) :
    (s.register b fw cap).tl = s.tl := rfl
@[simp] theorem State.register_bcSeq (s : State) (b : BoardId) (fw : Quadlet) (cap : Bool) :
    (s.register b fw cap).bcSeq = s.bcSeq := rfl
@[simp] theorem State.register_rxTimeout (s : State) (b : BoardId) (fw : Quadlet) (cap : Bool) :
    (s.register b fw cap).rxTimeout = s.rxTimeout := rfl
@[simp] theorem State.register_noForward (s : State) (b : BoardId) (fw : Quadlet) (cap : Bool) :
    (s.register b fw cap).noForward = s.noForward := rfl
@[simp] theorem State.register_recvTicks (s : State) (b : BoardId) (fw : Quadlet) (cap : Bool) :
    (s.register b fw cap).recvTicks = s.recvTicks := rfl
@[simp] theorem State.register_totalTicks (s : State) (b : BoardId) (fw : Quadlet) (cap : Bool) :
    (s.register b fw cap).totalTicks = s.totalTicks := rfl
@[simp] theorem State.register_trailerFlags (s : State) (b : BoardId) (fw : Quadlet) (cap : Bool) :
    (s.register b fw cap).trailerFlags = s.trailerFlags := rfl
@[simp] theorem State.register_trailerAux (s : State) (b : BoardId) (fw : Quadlet) (cap : Bool) :
    (s.register b fw cap).trailerAux = s.trailerAux := rfl
@[simp] theorem State.register_phase (s : State) (b : BoardId) (fw : Quadlet) (cap : Bool) :
    (s.register b fw cap).phase = s.phase := rfl
@[simp] theorem State.register_inflight (s : State) (b : BoardId) (fw : Quadlet) (cap : Bool) :
    (s.register b fw cap).inflight = s.inflight := rfl
@[simp] theorem State.register_diagLog (s : State) (b : BoardId) (fw : Quadlet) (cap : Bool) :
    (s.register b fw cap).diagLog = s.diagLog := rfl
@[simp] theorem State.register_out (s : State) (b : BoardId) (fw : Quadlet) (cap : Bool) :
    (s.register b fw cap).out = s.out := rfl
@[simp] theorem State.register_input (s : State) (b : BoardId) (fw : Quadlet) (cap : Bool) :
    (s.register b fw cap).input = s.input := rfl
@[simp] theorem State.register_drawCount (s : State) (b : BoardId) (fw : Quadlet) (cap : Bool) :
    (s.register b fw cap).drawCount = s.drawCount := rfl
@[simp] theorem State.register_boardAt (s : State) (b : BoardId) (fw : Quadlet) (cap : Bool) (m : NodeId) :
    (s.register b fw cap).boardAt m = s.boardAt m := rfl

/-! ### `State.unregister` -/

@[simp] theorem State.unregister_inUseMask (s : State) (b : BoardId) :
    (s.unregister b).inUseMask = s.inUseMask &&& ~~~ BitVec.twoPow 16 b.val := rfl
@[simp] theorem State.unregister_numBoards (s : State) (b : BoardId) :
    (s.unregister b).numBoards = s.numBoards - 1#32 := rfl
@[simp] theorem State.unregister_portState (s : State) (b : BoardId) :
    (s.unregister b).portState = s.portState := by
  simp [State.unregister]
@[simp] theorem State.unregister_mode (s : State) (b : BoardId) :
    (s.unregister b).mode = s.mode := by
  simp [State.unregister]
@[simp] theorem State.unregister_busGen (s : State) (b : BoardId) :
    (s.unregister b).busGen = s.busGen := by
  simp [State.unregister]
@[simp] theorem State.unregister_staleMap (s : State) (b : BoardId) :
    (s.unregister b).staleMap = s.staleMap := by
  simp [State.unregister]
@[simp] theorem State.unregister_tl (s : State) (b : BoardId) :
    (s.unregister b).tl = s.tl := by
  simp [State.unregister]
@[simp] theorem State.unregister_bcSeq (s : State) (b : BoardId) :
    (s.unregister b).bcSeq = s.bcSeq := by
  simp [State.unregister]
@[simp] theorem State.unregister_rxTimeout (s : State) (b : BoardId) :
    (s.unregister b).rxTimeout = s.rxTimeout := by
  simp [State.unregister]
@[simp] theorem State.unregister_noForward (s : State) (b : BoardId) :
    (s.unregister b).noForward = s.noForward := by
  simp [State.unregister]
@[simp] theorem State.unregister_recvTicks (s : State) (b : BoardId) :
    (s.unregister b).recvTicks = s.recvTicks := by
  simp [State.unregister]
@[simp] theorem State.unregister_totalTicks (s : State) (b : BoardId) :
    (s.unregister b).totalTicks = s.totalTicks := by
  simp [State.unregister]
@[simp] theorem State.unregister_trailerFlags (s : State) (b : BoardId) :
    (s.unregister b).trailerFlags = s.trailerFlags := by
  simp [State.unregister]
@[simp] theorem State.unregister_trailerAux (s : State) (b : BoardId) :
    (s.unregister b).trailerAux = s.trailerAux := by
  simp [State.unregister]
@[simp] theorem State.unregister_phase (s : State) (b : BoardId) :
    (s.unregister b).phase = s.phase := by
  simp [State.unregister]
@[simp] theorem State.unregister_inflight (s : State) (b : BoardId) :
    (s.unregister b).inflight = s.inflight := by
  simp [State.unregister]
@[simp] theorem State.unregister_diagLog (s : State) (b : BoardId) :
    (s.unregister b).diagLog = s.diagLog := by
  simp [State.unregister]
@[simp] theorem State.unregister_out (s : State) (b : BoardId) :
    (s.unregister b).out = s.out := by
  simp [State.unregister]
@[simp] theorem State.unregister_input (s : State) (b : BoardId) :
    (s.unregister b).input = s.input := by
  simp [State.unregister]
@[simp] theorem State.unregister_drawCount (s : State) (b : BoardId) :
    (s.unregister b).drawCount = s.drawCount := by
  simp [State.unregister]

end Sys2Proof.Machine
end

