-- ==== Sys2Proof/Laws/Effect.lean ====
section
/-! SUPPORT. Everything one instruction can do, said once: `Effect c s i t` lists the next states `execWith c i s` can
answer, each with what must hold for it, and `exec_effect` says that there are no others.  A proof about every instruction
takes `exec_effect` apart and never unfolds a meaning. -/

namespace Sys2Proof.Machine

/-- The next states of `i` at `s`. -/
inductive Effect (c : Config.Functions) (s : State) : Instr → State → Prop where
  /-- R147. -/
  | busy {i : Instr} : i.port = .cmd → s.phase ≠ .idle → Effect c s i (s.result .busy)
  /-- A command that ends at once and writes no register. -/
  | answered {i : Instr} {r : Result} : i.port = .cmd → s.phase = .idle →
      (Output.result r).carriesData = false → Effect c s i (s.result r)
  /-- R112. -/
  | inited : s.phase = .idle → s.portState = .constructed →
      Effect c s (.init true) ({ s with portState := .operational }.result .ok)
  /-- R113. -/
  | closed : s.phase = .idle → Effect c s .shutdown ({ s with portState := .closed }.result .ok)
  /-- R114. -/
  | timeoutSet (d : Duration) : s.phase = .idle → s.portState ≠ .closed →
      Effect c s (.setTimeout d) ({ s with rxTimeout := d }.result .ok)
  /-- R115. -/
  | noForwardSet (f : Bool) : s.phase = .idle → s.portState ≠ .closed →
      Effect c s (.setNoForward f) ({ s with noForward := f }.result .ok)
  /-- R108. -/
  | modeSet (m : BitVec 2) (mode : Mode) : s.phase = .idle → s.portState ≠ .closed → modeOf m = some mode →
      (mode = .seqRw ∨ s.bcAll = true) → Effect c s (.setProtocol m) ({ s with mode := mode }.result .ok)
  /-- R97. -/
  | added (b : Byte) (bid : BoardId) (fw : Quadlet) (cap : Bool) : s.phase = .idle → s.portState ≠ .closed →
      b.toNat = bid.val → s.numBoards ≠ BitVec.allOnes 32 →
      Effect c s (.addBoard b fw cap) ((s.register bid fw cap).result .ok)
  /-- R98. -/
  | removed (b : Byte) (bid : BoardId) : s.phase = .idle → s.portState ≠ .closed → b.toNat = bid.val →
      (s.slot bid).present = true → Effect c s (.removeBoard b) ((s.unregister bid).result .ok)
  /-- R99. -/
  | mapped (b n : Byte) (bid : BoardId) (nid : NodeId) : s.phase = .idle → s.portState ≠ .closed →
      b.toNat = bid.val → n.toNat = nid.val → (s.slot bid).present = true →
      Effect c s (.mapNode b n) ((s.mapNode bid nid).result .ok)
  /-- R100. -/
  | unmapped (b : Byte) (bid : BoardId) : s.phase = .idle → s.portState ≠ .closed → b.toNat = bid.val →
      (s.slot bid).present = true → Effect c s (.unmapNode b) ((s.unassign bid).result .ok)
  /-- R101: the lookup asks for a revalidation and the command is held. -/
  | held {i : Instr} (p : Pending) : i.port = .cmd → i.looksUp = true → s.phase = .idle → s.staleMap = true →
      s.portState = .operational → p.looksUp = true → p.lengthOk = true →
      (∀ b, p.unicastBoard = some b → (s.slot b).present = true) →
      Effect c s i
        ({ s with staleMap := false, inflight := some (Inflight.held p), phase := .waitReval }.emit .revalidate)
  /-- R105. -/
  | nodeAnswered (b : Byte) (bid : BoardId) : s.phase = .idle → s.portState ≠ .closed → b.toNat = bid.val →
      Effect c s (.nodeForBoard b) (s.answerNodeFor bid)
  /-- R106. -/
  | boardAnswered (n : Byte) (nid : NodeId) : s.phase = .idle → s.portState ≠ .closed → n.toNat = nid.val →
      Effect c s (.boardForNode n) (s.answerBoardFor nid)
  /-- R109 P6 to P8. -/
  | unicast {i : Instr} (p : Pending) (bid : BoardId) : i.port = .cmd → i.unicast ≠ none → s.phase = .idle →
      s.portState = .operational → p.unicastBoard = some bid → p.lengthOk = true → (s.slot bid).present = true →
      Effect c s i (s.sendUnicast p bid c)
  /-- R122, R123. -/
  | broadcast {i : Instr} (p : Pending) : i.port = .cmd → i.unicast = none → i.broadcast ≠ none → s.phase = .idle →
      s.portState = .operational → p.op = .bwq ∨ p.op = .bwb → p.lengthOk = true → s.mode ≠ .seqRw →
      Effect c s i (s.sendRequest p Config.broadcastNode c)
  /-- R124. -/
  | bcReadRequested (seq : BitVec 16) : s.phase = .idle → s.portState = .operational → s.mode = .bcQrw →
      Effect c s (.writeBcReadRequest seq) ({ s with bcSeq := seq }.sendRequest (.brr seq) Config.broadcastNode c)
  /-- R126. -/
  | bcReadAwaited : s.phase = .idle → s.portState = .operational → s.mode = .bcQrw →
      Effect c s .waitBcRead { s with inflight := some Inflight.awaiting }.awaitReceive
  /-- A frame presented to the codec. -/
  | codec {i : Instr} (r : CodecReport) : i.port = .codec → Effect c s i (s.emit (.codec r))
  /-- R134, R135: an event that is ignored. -/
  | ignored {i : Instr} : i.port = .event → (∀ r, i = .sendDone r → s.phase ≠ .waitSend) →
      (∀ r, i = .recvDone r → s.phase ≠ .waitRecv) → (∀ m, i = .revalDone m → s.phase ≠ .waitReval) →
      (∀ g, i = .busReset g → s.portState = .closed) → Effect c s i s
  /-- R128. -/
  | sendFailed (f : Inflight) : s.phase = .waitSend → s.inflight = some f →
      Effect c s (.sendDone .fail) ({ s with portState := .faulted }.fail f .sendFailure .transportFailure)
  /-- R128. -/
  | writeSent (f : Inflight) : s.phase = .waitSend → s.inflight = some f →
      f.cmd.sends = true → f.cmd.reads = false → Effect c s (.sendDone .ok) (s.finish .ok)
  /-- R128. -/
  | readSent (f : Inflight) : s.phase = .waitSend → s.inflight = some f → f.cmd.reads = true →
      Effect c s (.sendDone .ok) s.awaitReceive
  /-- R129. -/
  | timedOut (f : Inflight) : s.phase = .waitRecv → s.inflight = some f →
      Effect c s (.recvDone .timeout) (s.fail f .timeout .timeoutError)
  /-- R129. -/
  | receiveFailed (f : Inflight) : s.phase = .waitRecv → s.inflight = some f →
      Effect c s (.recvDone .fail) ({ s with portState := .faulted }.fail f .receiveFailure .transportFailure)
  /-- R130, R131 steps 1 and 2. -/
  | rejected (f : Inflight) (rx : List Byte) (reason : Reason) : s.phase = .waitRecv → s.inflight = some f →
      Effect c s (.recvDone (.bytes rx)) (s.fail f reason .frameValidationFailure)
  /-- R130, R131 step 4. -/
  | resynced (f : Inflight) (fr tr : List Byte) : s.phase = .waitRecv → s.inflight = some f → tr.length = 8 →
      byteAt tr 1 ≠ s.busGen →
      Effect c s (.recvDone (.bytes (fr ++ tr))) ((s.acceptTrailer tr).resync f (byteAt tr 1))
  /-- R131 step 5. -/
  | wrongSequence (f : Inflight) (fr tr : List Byte) : s.phase = .waitRecv → s.inflight = some f → tr.length = 8 →
      f.cmd = .wbr →
      Effect c s (.recvDone (.bytes (fr ++ tr))) ((s.acceptTrailer tr).fail f .seqMismatch .frameValidationFailure)
  /-- R130 steps 5 and 6. -/
  | delivered (f : Inflight) (fr tr : List Byte) (b : BoardId) (n : NodeNum) (code : BitVec 4) (t : Label) (l : Nat)
      (r : Result) : s.phase = .waitRecv → s.inflight = some f → tr.length = 8 → byteAt tr 1 = s.busGen →
      f.cmd.reads = true → f.cmd.unicastBoard = some b → f.node = some n → f.expTcode = some code → f.expTl = some t →
      f.expLen = some l → validateResponse fr n code t l c = .valid →
      Effect c s (.recvDone (.bytes (fr ++ tr))) (((s.acceptTrailer tr).capUpdate b).finish r)
  /-- R131 steps 6 and 7. -/
  | deliveredAll (f : Inflight) (fr tr payload : List Byte) : s.phase = .waitRecv → s.inflight = some f →
      tr.length = 8 → byteAt tr 1 = s.busGen → f.cmd = .wbr → validateBroadcast fr c = .valid →
      payload = (fr.drop 20).take (q3Length (quadAt fr 3)).toNat → c.bcSeqOf payload = some s.bcSeq →
      Effect c s (.recvDone (.bytes (fr ++ tr))) ((s.acceptTrailer tr).capUpdateAll.finish (.okBytes payload))
  /-- R102 step 3: a bus reset came while the query was out. -/
  | askedAgain (m : RevalMap) (f : Inflight) : s.phase = .waitReval → s.inflight = some f → s.staleMap = true →
      Effect c s (.revalDone m) ({ s.installMap m with staleMap := false }.emit .revalidate)
  /-- R102, R105. -/
  | nodeResumed (m : RevalMap) (f : Inflight) (b : BoardId) : s.phase = .waitReval → s.inflight = some f →
      s.staleMap = false → f.cmd = .nfb b → Effect c s (.revalDone m) ((s.installMap m).answerNodeFor b)
  /-- R102, R106. -/
  | boardResumed (m : RevalMap) (f : Inflight) (n : NodeId) : s.phase = .waitReval → s.inflight = some f →
      s.staleMap = false → f.cmd = .bfn n → Effect c s (.revalDone m) ((s.installMap m).answerBoardFor n)
  /-- R102, R109. -/
  | unicastResumed (m : RevalMap) (f : Inflight) (b : BoardId) : s.phase = .waitReval → s.inflight = some f →
      s.staleMap = false → f.cmd.unicastBoard = some b →
      Effect c s (.revalDone m) ((s.installMap m).sendUnicast f.cmd b c)
  /-- R134. -/
  | busReset (g : BitVec 32) : s.portState ≠ .closed → Effect c s (.busReset g) (s.busResetAction (g.setWidth 8))

/-! ### The pieces -/

theorem ethSplit_some {rx fr tr : List Byte} (h : ethSplit rx = some (fr, tr)) : rx = fr ++ tr ∧ tr.length = 8 := by
  unfold ethSplit Config.extraSize at h
  split at h
  · cases h
  · cases h; simp; omega

theorem ethSplit_append {tr : List Byte} (h : tr.length = 8) (fr : List Byte) : ethSplit (fr ++ tr) = some (fr, tr) := by
  simp [ethSplit, Config.extraSize, h]

theorem Instr.looksUp_of_unicast {i : Instr} (h : i.unicast ≠ none) : i.looksUp = true := by
  cases i <;> simp_all [Instr.unicast, Instr.looksUp]

/-- The lookup of a command: held, or gone on with at once. -/
theorem lookup_effect {c : Config.Functions} {s t : State} {i : Instr} {p : Pending} {k : State → State} (hi : i.port = .cmd)
    (hil : i.looksUp = true) (hp : s.phase = .idle) (hl : p.looksUp = true) (hlen : p.lengthOk = true)
    (hb : ∀ b, p.unicastBoard = some b → (s.slot b).present = true) (hk : Effect c s i (k s))
    (h : (.next (s.lookup p k) : StepOutcome) = .next t) : Effect c s i t := by
  cases h
  unfold State.lookup
  split
  · next h => exact .held p hi hil hp h.1 h.2 hl hlen hb
  · exact hk

/-- The four unicast commands past their prologue. -/
theorem unicastGo_effect {c : Config.Functions} {s t : State} {i : Instr} {p : Pending} {b : BoardId} (hi : i.port = .cmd)
    (hu : i.unicast ≠ none) (hp : s.phase = .idle) (hl : p.looksUp = true) (hlen : p.lengthOk = true)
    (hub : p.unicastBoard = some b) (hb : (s.slot b).present = true) (h : unicastGo s p b c = .next t) :
    Effect c s i t := by
  obtain rfl | rfl | ⟨ho, h⟩ := whenOperational_next h
  · exact .answered hi hp rfl
  · exact .answered hi hp rfl
  · refine lookup_effect (k := fun s => s.sendUnicast p b c) hi (Instr.looksUp_of_unicast hu) hp hl hlen (fun d hd => ?_)
      (.unicast p b hi hu hp ho hub hlen hb) h
    rw [hub] at hd; cases hd; exact hb

/-- The prologue of the four unicast commands. -/
theorem unicastPrologue_effect {c : Config.Functions} {s t : State} {i : Instr} {b : Byte} {k : BoardId → StepOutcome} (hi : i.port = .cmd)
    (hk : ∀ bid : BoardId, s.phase = .idle → (s.slot bid).present = true → k bid = .next t → Effect c s i t)
    (h : unicastPrologue s b k = .next t) : Effect c s i t := by
  obtain ⟨hp, rfl⟩ | ⟨hp, h⟩ := whenIdle_next h
  · exact .busy hi hp
  obtain rfl | ⟨bid, -, h⟩ := withBoard_next h
  · exact .answered hi hp rfl
  obtain rfl | ⟨hb, h⟩ := whenRegistered_next h
  · exact .answered hi hp rfl
  exact hk bid hp hb h

theorem inPhase_next {s t : State} {p : Phase} {k : Inflight → StepOutcome} (h : inPhase s p k = .next t) :
    (s.phase ≠ p ∧ t = s) ∨ ∃ f, s.phase = p ∧ s.inflight = some f ∧ k f = .next t := by
  unfold inPhase at h
  split at h
  · next hp =>
    split at h
    · next f hf => exact .inr ⟨f, hp, hf, h⟩
    · cases h
  · exact .inl ⟨‹_›, by simpa using h.symm⟩

theorem judgeUnicast_effect {c : Config.Functions} {s : State} {f : Inflight} {b : BoardId} {n : NodeNum} {code : BitVec 4}
    {l : Label} {len : Nat}
    (deliver : List Byte → Result) (rx : List Byte) (hp : s.phase = .waitRecv) (hf : s.inflight = some f)
    (hr : f.cmd.reads = true) (hb : f.cmd.unicastBoard = some b) (hn : f.node = some n) (hc : f.expTcode = some code)
    (hl : f.expTl = some l) (hlen : f.expLen = some len) :
    Effect c s (.recvDone (.bytes rx)) (s.judgeUnicast f b n code l len deliver rx c) := by
  unfold State.judgeUnicast
  split
  · exact .rejected f rx _ hp hf
  · next fr tr hsp =>
    obtain ⟨rfl, htr⟩ := ethSplit_some hsp
    split
    · exact .rejected f _ _ hp hf
    · next hv =>
      dsimp only
      split
      · next hg => exact .resynced f fr tr hp hf htr hg
      · next hg =>
        refine .delivered f fr tr b n code l len _ hp hf htr ?_ hr hb hn hc hl hlen ?_
        · simpa [State.acceptTrailer] using hg
        · revert hv; cases validateResponse fr n code l len c <;> simp [Verdict.reason]

theorem judgeBroadcast_effect {c : Config.Functions} {s : State} {f : Inflight} (rx : List Byte) (hp : s.phase = .waitRecv)
    (hf : s.inflight = some f) (hw : f.cmd = .wbr) :
    Effect c s (.recvDone (.bytes rx)) (s.judgeBroadcast f rx c) := by
  unfold State.judgeBroadcast
  split
  · exact .rejected f rx _ hp hf
  · next fr tr hsp =>
    obtain ⟨rfl, htr⟩ := ethSplit_some hsp
    split
    · exact .rejected f _ _ hp hf
    · next hv =>
      dsimp only
      split
      · next hg => exact .resynced f fr tr hp hf htr hg
      · next hg =>
        split
        · exact .wrongSequence f fr tr hp hf htr hw
        · next hs =>
          refine .deliveredAll f fr tr _ hp hf htr (by simpa [State.acceptTrailer] using hg) hw ?_ (by simp [slice]) ?_
          · revert hv; cases validateBroadcast fr c <;> simp [Verdict.reason]
          · simpa [State.acceptTrailer] using hs

theorem judge_effect {c : Config.Functions} {s t : State} {f : Inflight} (rx : List Byte) (hp : s.phase = .waitRecv)
    (hf : s.inflight = some f) (h : s.judge f rx c = .next t) : Effect c s (.recvDone (.bytes rx)) t := by
  unfold State.judge at h
  split at h
  · next hcmd hn hc hl hlen => cases h; exact judgeUnicast_effect _ rx hp hf (by rw [hcmd]; rfl) (by rw [hcmd]; rfl) hn hc hl hlen
  · next hcmd hn hc hl hlen => cases h; exact judgeUnicast_effect _ rx hp hf (by rw [hcmd]; rfl) (by rw [hcmd]; rfl) hn hc hl hlen
  · next hcmd => cases h; exact judgeBroadcast_effect rx hp hf hcmd
  · cases h

theorem resume_effect {c : Config.Functions} {s t : State} {f : Inflight} (m : RevalMap) (hp : s.phase = .waitReval)
    (hf : s.inflight = some f) (hs : s.staleMap = false) (h : (s.installMap m).resume f.cmd c = .next t) :
    Effect c s (.revalDone m) t := by
  cases hcmd : f.cmd <;> simp only [hcmd, State.resume, Host.Outcome.next.injEq, reduceCtorEq] at h <;> subst h
  case nfb b => exact .nodeResumed m f b hp hf hs hcmd
  case bfn n => exact .boardResumed m f n hp hf hs hcmd
  all_goals
    rw [← hcmd]
    exact .unicastResumed m f _ hp hf hs (by rw [hcmd]; rfl)

/-! ### Every instruction -/

/-- The next states of `execWith c` are those of `Effect c`. -/
theorem execWith_effect {c : Config.Functions} {s t : State} {i : Instr} (h : execWith c i s = .next t) :
    Effect c s i t := by
  cases i with
  | qwrite => cases h; exact .codec _ rfl
  | bwrite => cases h; exact .codec _ rfl
  | qread => cases h; exact .codec _ rfl
  | bread => cases h; exact .codec _ rfl
  | qresp => cases h; exact .codec _ rfl
  | bresp => cases h; exact .codec _ rfl
  | init r =>
    obtain ⟨hp, rfl⟩ | ⟨hp, h⟩ := whenIdle_next h
    · exact .busy rfl hp
    split at h <;> cases h
    case h_4 hs => exact .inited hp hs
    all_goals exact .answered rfl hp rfl
  | shutdown =>
    obtain ⟨hp, rfl⟩ | ⟨hp, h⟩ := whenIdle_next h
    · exact .busy rfl hp
    cases h; exact .closed hp
  | setTimeout d =>
    obtain ⟨hp, rfl⟩ | ⟨hp, h⟩ := whenIdle_next h
    · exact .busy rfl hp
    obtain rfl | ⟨ho, h⟩ := unlessClosed_next h
    · exact .answered rfl hp rfl
    cases h; exact .timeoutSet d hp ho
  | setNoForward f =>
    obtain ⟨hp, rfl⟩ | ⟨hp, h⟩ := whenIdle_next h
    · exact .busy rfl hp
    obtain rfl | ⟨ho, h⟩ := unlessClosed_next h
    · exact .answered rfl hp rfl
    cases h; exact .noForwardSet f hp ho
  | setProtocol m =>
    obtain ⟨hp, rfl⟩ | ⟨hp, h⟩ := whenIdle_next h
    · exact .busy rfl hp
    split at h
    · cases h; exact .answered rfl hp rfl
    · next mode hm =>
      obtain rfl | ⟨ho, h⟩ := unlessClosed_next h
      · exact .answered rfl hp rfl
      by_cases hc : mode = .seqRw ∨ s.bcAll = true
      · rw [if_pos hc] at h; cases h; exact .modeSet m mode hp ho hm hc
      · rw [if_neg hc] at h; cases h; exact .answered rfl hp rfl
  | getStatus =>
    obtain ⟨hp, rfl⟩ | ⟨hp, h⟩ := whenIdle_next h
    · exact .busy rfl hp
    cases h; exact .answered rfl hp rfl
  | getTiming =>
    obtain ⟨hp, rfl⟩ | ⟨hp, h⟩ := whenIdle_next h
    · exact .busy rfl hp
    cases h; exact .answered rfl hp rfl
  | addBoard b fw cap =>
    obtain ⟨hp, rfl⟩ | ⟨hp, h⟩ := whenIdle_next h
    · exact .busy rfl hp
    obtain rfl | ⟨bid, hb, h⟩ := withBoard_next h
    · exact .answered rfl hp rfl
    obtain rfl | ⟨ho, h⟩ := unlessClosed_next h
    · exact .answered rfl hp rfl
    by_cases hn : s.numBoards = BitVec.allOnes 32
    · rw [if_pos hn] at h; cases h
    · rw [if_neg hn] at h; cases h; exact .added b bid fw cap hp ho hb hn
  | removeBoard b =>
    obtain ⟨hp, rfl⟩ | ⟨hp, h⟩ := whenIdle_next h
    · exact .busy rfl hp
    obtain rfl | ⟨bid, hb, h⟩ := withBoard_next h
    · exact .answered rfl hp rfl
    obtain rfl | ⟨hr, h⟩ := whenRegistered_next h
    · exact .answered rfl hp rfl
    obtain rfl | ⟨ho, h⟩ := unlessClosed_next h
    · exact .answered rfl hp rfl
    cases h; exact .removed b bid hp ho hb hr
  | mapNode b n =>
    obtain ⟨hp, rfl⟩ | ⟨hp, h⟩ := whenIdle_next h
    · exact .busy rfl hp
    obtain rfl | ⟨bid, hb, h⟩ := withBoard_next h
    · exact .answered rfl hp rfl
    obtain rfl | ⟨hr, h⟩ := whenRegistered_next h
    · exact .answered rfl hp rfl
    obtain rfl | ⟨nid, hn, h⟩ := withNode_next h
    · exact .answered rfl hp rfl
    obtain rfl | ⟨ho, h⟩ := unlessClosed_next h
    · exact .answered rfl hp rfl
    cases h; exact .mapped b n bid nid hp ho hb hn hr
  | unmapNode b =>
    obtain ⟨hp, rfl⟩ | ⟨hp, h⟩ := whenIdle_next h
    · exact .busy rfl hp
    obtain rfl | ⟨bid, hb, h⟩ := withBoard_next h
    · exact .answered rfl hp rfl
    obtain rfl | ⟨hr, h⟩ := whenRegistered_next h
    · exact .answered rfl hp rfl
    obtain rfl | ⟨ho, h⟩ := unlessClosed_next h
    · exact .answered rfl hp rfl
    cases h; exact .unmapped b bid hp ho hb hr
  | boardExists b =>
    obtain ⟨hp, rfl⟩ | ⟨hp, h⟩ := whenIdle_next h
    · exact .busy rfl hp
    obtain rfl | ⟨bid, hb, h⟩ := withBoard_next h
    · exact .answered rfl hp rfl
    obtain rfl | ⟨ho, h⟩ := unlessClosed_next h
    · exact .answered rfl hp rfl
    cases h; exact .answered rfl hp rfl
  | fwVersion b =>
    obtain ⟨hp, rfl⟩ | ⟨hp, h⟩ := whenIdle_next h
    · exact .busy rfl hp
    obtain rfl | ⟨bid, hb, h⟩ := withBoard_next h
    · exact .answered rfl hp rfl
    obtain rfl | ⟨hr, h⟩ := whenRegistered_next h
    · exact .answered rfl hp rfl
    obtain rfl | ⟨ho, h⟩ := unlessClosed_next h
    · exact .answered rfl hp rfl
    cases h; exact .answered rfl hp rfl
  | nodeForBoard b =>
    obtain ⟨hp, rfl⟩ | ⟨hp, h⟩ := whenIdle_next h
    · exact .busy rfl hp
    obtain rfl | ⟨bid, hb, h⟩ := withBoard_next h
    · exact .answered rfl hp rfl
    obtain rfl | ⟨ho, h⟩ := unlessClosed_next h
    · exact .answered rfl hp rfl
    exact lookup_effect (k := fun s => s.answerNodeFor bid) rfl rfl hp rfl rfl (fun _ hc => by cases hc)
      (.nodeAnswered b bid hp ho hb) h
  | boardForNode n =>
    obtain ⟨hp, rfl⟩ | ⟨hp, h⟩ := whenIdle_next h
    · exact .busy rfl hp
    obtain rfl | ⟨ho, h⟩ := unlessClosed_next h
    · exact .answered rfl hp rfl
    split at h
    · cases h; exact .answered rfl hp rfl
    · next nid hn =>
      exact lookup_effect (k := fun s => s.answerBoardFor nid) rfl rfl hp rfl rfl (fun _ hc => by cases hc)
        (.boardAnswered n nid hp ho (nodeOf_eq_some.1 hn)) h
  | bcCapableAll =>
    obtain ⟨hp, rfl⟩ | ⟨hp, h⟩ := whenIdle_next h
    · exact .busy rfl hp
    obtain rfl | ⟨ho, h⟩ := unlessClosed_next h
    · exact .answered rfl hp rfl
    cases h; exact .answered rfl hp rfl
  | readQuadlet b a =>
    exact unicastPrologue_effect rfl
      (fun bid hp hb => unicastGo_effect rfl (by simp [Instr.unicast]) hp rfl rfl rfl hb) h
  | writeQuadlet b a v =>
    exact unicastPrologue_effect rfl
      (fun bid hp hb => unicastGo_effect rfl (by simp [Instr.unicast]) hp rfl rfl rfl hb) h
  | readBlock b a len =>
    refine unicastPrologue_effect rfl (fun bid hp hb h => ?_) h
    obtain rfl | ⟨hl, h⟩ := whenLength_next h
    · exact .answered rfl hp rfl
    exact unicastGo_effect (p := .rb bid a len) rfl (by simp [Instr.unicast]) hp rfl hl rfl hb h
  | writeBlock b a data =>
    refine unicastPrologue_effect rfl (fun bid hp hb h => ?_) h
    obtain rfl | ⟨hl, h⟩ := whenLength_next h
    · exact .answered rfl hp rfl
    exact unicastGo_effect (p := .wb bid a data) rfl (by simp [Instr.unicast]) hp rfl hl rfl hb h
  | writeBcQuadlet a v =>
    obtain ⟨hp, rfl⟩ | ⟨hp, h⟩ := whenIdle_next h
    · exact .busy rfl hp
    obtain rfl | ⟨hm, h⟩ := whenAllowed_next h
    · exact .answered rfl hp rfl
    obtain rfl | rfl | ⟨ho, h⟩ := whenOperational_next h
    · exact .answered rfl hp rfl
    · exact .answered rfl hp rfl
    cases h
    exact .broadcast _ rfl rfl (by simp [Instr.broadcast]) hp ho (.inl rfl) rfl (fun he => by simp [he, Mode.allowsBcWrite] at hm)
  | writeBcBlock a data =>
    obtain ⟨hp, rfl⟩ | ⟨hp, h⟩ := whenIdle_next h
    · exact .busy rfl hp
    obtain rfl | ⟨hm, h⟩ := whenAllowed_next h
    · exact .answered rfl hp rfl
    obtain rfl | ⟨hl, h⟩ := whenLength_next h
    · exact .answered rfl hp rfl
    obtain rfl | rfl | ⟨ho, h⟩ := whenOperational_next h
    · exact .answered rfl hp rfl
    · exact .answered rfl hp rfl
    cases h
    exact .broadcast _ rfl rfl (by simp [Instr.broadcast]) hp ho (.inr rfl) hl (fun he => by simp [he, Mode.allowsBcWrite] at hm)
  | writeBcReadRequest seq =>
    obtain ⟨hp, rfl⟩ | ⟨hp, h⟩ := whenIdle_next h
    · exact .busy rfl hp
    obtain rfl | ⟨hm, h⟩ := whenAllowed_next h
    · exact .answered rfl hp rfl
    obtain rfl | rfl | ⟨ho, h⟩ := whenOperational_next h
    · exact .answered rfl hp rfl
    · exact .answered rfl hp rfl
    cases h
    exact .bcReadRequested seq hp ho (by revert hm; cases s.mode <;> simp [Mode.allowsBcRead])
  | waitBcRead =>
    obtain ⟨hp, rfl⟩ | ⟨hp, h⟩ := whenIdle_next h
    · exact .busy rfl hp
    obtain rfl | ⟨hm, h⟩ := whenAllowed_next h
    · exact .answered rfl hp rfl
    obtain rfl | rfl | ⟨ho, h⟩ := whenOperational_next h
    · exact .answered rfl hp rfl
    · exact .answered rfl hp rfl
    cases h
    exact .bcReadAwaited hp ho (by revert hm; cases s.mode <;> simp [Mode.allowsBcRead])
  | sendDone r =>
    obtain ⟨hp, rfl⟩ | ⟨f, hp, hf, h⟩ := inPhase_next h
    · exact .ignored rfl (by simp [hp]) (by simp) (by simp) (by simp)
    cases r with
    | fail => cases h; exact .sendFailed f hp hf
    | ok =>
      dsimp only [State.sent] at h
      split at h <;> cases h
      all_goals first
        | (next hcmd => exact .readSent f hp hf (by rw [hcmd]; rfl))
        | (next hcmd => exact .writeSent f hp hf (by rw [hcmd]; rfl) (by rw [hcmd]; rfl))
  | recvDone r =>
    obtain ⟨hp, rfl⟩ | ⟨f, hp, hf, h⟩ := inPhase_next h
    · exact .ignored rfl (by simp) (by simp [hp]) (by simp) (by simp)
    cases r with
    | timeout => cases h; exact .timedOut f hp hf
    | fail => cases h; exact .receiveFailed f hp hf
    | bytes rx => exact judge_effect rx hp hf h
  | revalDone m =>
    obtain ⟨hp, rfl⟩ | ⟨f, hp, hf, h⟩ := inPhase_next h
    · exact .ignored rfl (by simp) (by simp) (by simp [hp]) (by simp)
    by_cases hs : s.staleMap = true
    · rw [if_pos hs] at h
      obtain rfl := Host.Outcome.next.inj h
      exact .askedAgain m f hp hf hs
    · rw [if_neg hs] at h
      exact resume_effect m hp hf (by simpa using hs) h
  | busReset g =>
    dsimp only [execWith, execBusReset] at h
    split at h <;> cases h
    · next hc => exact .ignored rfl (by simp) (by simp) (by simp) (by simp [hc])
    · next ho => exact .busReset g ho

/-! ### What an interface spells -/

/-- The decoder of an interface gives instructions of that interface. -/
theorem port_of_decode {p : Port} {bytes : List Byte} {i : Instr} (h : decode p bytes = .ok i) : i.port = p := by
  cases p with
  | codec =>
    simp only [decode, decodeFrame] at h
    repeat' split at h
    all_goals cases h
    all_goals rfl
  | cmd =>
    cases bytes with
    | nil => cases h
    | cons code ops =>
      simp only [decode, decodeCommand, takeByte, takeNone, takeDuration, takeBoardHandle, takeTwo, takeBoardAddr,
        takeAddr, takeQuadlet, takeData] at h
      split at h
      all_goals (repeat' split at h)
      all_goals cases h
      all_goals rfl
  | event =>
    cases bytes with
    | nil => cases h
    | cons code ops =>
      simp only [decode, decodeEvent, takeByte, takeOutcome, takeMap, takeQuadlet, takeNone] at h
      split at h
      all_goals (repeat' split at h)
      all_goals cases h
      all_goals rfl

/-! ### The machine with the default functions (R11) -/

theorem execWith_functions (i : Instr) (s : State) : execWith functions i s = exec i s := by cases i <;> rfl

theorem stepWith_functions (s : State) : stepWith functions s = step s := by
  unfold stepWith step take
  split
  · next h => rw [h]
  · next h => rw [h]
  · next port bytes _ h =>
    rw [h]
    cases hd : decode port bytes <;> simp only [hd, execWith_functions]

/-- A machine configured with the default functions is `exec` and `step`. -/
theorem Configuration.exec_default (h : DetectsFlips Machine.functions) (i : Instr) (s : State) :
    (Configuration.mk Machine.functions h).exec i s = Machine.exec i s := execWith_functions i s

theorem Configuration.step_default (h : DetectsFlips Machine.functions) (s : State) :
    (Configuration.mk Machine.functions h).step s = Machine.step s := stepWith_functions s

/-- The next states of `exec` are those of `Effect functions`. -/
theorem exec_effect {s t : State} {i : Instr} (h : exec i s = .next t) : Effect functions s i t :=
  execWith_effect ((execWith_functions i s).trans h)

end Sys2Proof.Machine
end

