-- ==== Sys2Proof/Laws/PerInstr.lean ====
section
/-! SUPPORT. Facts about every instruction as syntax, one lemma per constructor.  The family `EncodedSize`: an
encoded instruction has the size R63 to R68 and R76 give it. -/

namespace Sys2Proof.Laws.EncodedSize

open Machine

/-- How many bytes a well-formed instruction takes: R58's bare size for a frame, one code byte and the operands
of R76 (each at its width in whole bytes) for a command; the model's own operand form for an event. -/
def size : Instr → Nat
  | .qwrite .. | .bread .. | .qresp .. => 20
  | .qread .. => 16
  | .bwrite _ len _ _ _ => 20 + len.toNat + (if Config.bwriteDataCrc then 4 else 0)
  | .bresp _ len _ _ _ => 20 + len.toNat + 4
  | .shutdown | .getStatus | .getTiming | .bcCapableAll | .waitBcRead => 1
  | .init _ | .setNoForward _ | .setProtocol _ | .removeBoard _ | .unmapNode _ | .boardExists _ | .fwVersion _
  | .nodeForBoard _ | .boardForNode _ => 2
  | .mapNode _ _ | .writeBcReadRequest _ => 3
  | .addBoard .. => 7
  | .readQuadlet .. => 8
  | .setTimeout _ => 9
  | .writeBcQuadlet .. => 11
  | .writeQuadlet .. | .readBlock .. => 12
  | .writeBlock _ _ data => 10 + data.length
  | .writeBcBlock _ data => 9 + data.length
  | .sendDone _ => 2
  | .recvDone (.bytes b) => 2 + b.length
  | .recvDone .timeout | .recvDone .fail => 2
  | .revalDone _ => 33
  | .busReset _ => 5

/-- A well-formed instruction's encoding has its size. -/
def Statement (i : Instr) : Prop := i.wf = true → (encode i).length = size i

theorem pairs_length (l : List (Option Byte)) : (l.flatMap pairBytes).length = 2 * l.length := by
  induction l with
  | nil => rfl
  | cons x xs ih => cases x <;> simp [pairBytes, ih] <;> omega

theorem qwrite (h data crc) : Statement (.qwrite h data crc) := fun _ => rfl
theorem bwrite (h len ext crc tail) : Statement (.bwrite h len ext crc tail) := by
  intro w; simp_all [Instr.wf, wfWriteTail, encode, size, Config.crcSize]; omega
theorem qread (h crc) : Statement (.qread h crc) := fun _ => rfl
theorem bread (h len ext crc) : Statement (.bread h len ext crc) := fun _ => rfl
theorem qresp (h data crc) : Statement (.qresp h data crc) := fun _ => rfl
theorem bresp (h len ext crc tail) : Statement (.bresp h len ext crc tail) := by
  intro w; simp_all [Instr.wf, wfRespTail, encode, size, Config.crcSize]; omega
theorem init (r) : Statement (.init r) := fun _ => rfl
theorem shutdown : Statement .shutdown := fun _ => rfl
theorem setTimeout (d) : Statement (.setTimeout d) := fun _ => rfl
theorem setNoForward (f) : Statement (.setNoForward f) := fun _ => rfl
theorem setProtocol (m) : Statement (.setProtocol m) := fun _ => rfl
theorem getStatus : Statement .getStatus := fun _ => rfl
theorem getTiming : Statement .getTiming := fun _ => rfl
theorem addBoard (b fw cap) : Statement (.addBoard b fw cap) := fun _ => rfl
theorem removeBoard (b) : Statement (.removeBoard b) := fun _ => rfl
theorem mapNode (b n) : Statement (.mapNode b n) := fun _ => rfl
theorem unmapNode (b) : Statement (.unmapNode b) := fun _ => rfl
theorem boardExists (b) : Statement (.boardExists b) := fun _ => rfl
theorem fwVersion (b) : Statement (.fwVersion b) := fun _ => rfl
theorem nodeForBoard (b) : Statement (.nodeForBoard b) := fun _ => rfl
theorem boardForNode (n) : Statement (.boardForNode n) := fun _ => rfl
theorem bcCapableAll : Statement .bcCapableAll := fun _ => rfl
theorem readQuadlet (b a) : Statement (.readQuadlet b a) := fun _ => rfl
theorem writeQuadlet (b a v) : Statement (.writeQuadlet b a v) := fun _ => rfl
theorem readBlock (b a len) : Statement (.readBlock b a len) := fun _ => rfl
theorem writeBlock (b a data) : Statement (.writeBlock b a data) := by
  intro _; simp [encode, size, dataBytes]; omega
theorem writeBcQuadlet (a v) : Statement (.writeBcQuadlet a v) := fun _ => rfl
theorem writeBcBlock (a data) : Statement (.writeBcBlock a data) := by
  intro _; simp [encode, size, dataBytes]; omega
theorem writeBcReadRequest (seq) : Statement (.writeBcReadRequest seq) := fun _ => rfl
theorem waitBcRead : Statement .waitBcRead := fun _ => rfl
theorem sendDone (r) : Statement (.sendDone r) := fun _ => by cases r <;> rfl
theorem recvDone (r) : Statement (.recvDone r) := fun _ => by
  cases r <;> simp [encode, size] <;> omega
theorem revalDone (m) : Statement (.revalDone m) := fun _ => by
  simp only [encode, size, List.length_cons, pairs_length, Vector.length_toList]
theorem busReset (g) : Statement (.busReset g) := fun _ => rfl

end Sys2Proof.Laws.EncodedSize
end

