-- ==== Sys2Proof/Tests/Slice0.lean ====
section
/-! SUPPORT. Small tests.  Expected results are the spec's own: the worked examples of R97 to R134 and the vectors
of `95_test_vectors.md` (V<n>), or words written out from the tables of `30_encoding.md`.  The second part shows,
for every statement with hypotheses, a state and operands that meet them. -/

open Sys2Proof Sys2Proof.Machine

set_option Elab.async false

namespace Sys2Proof.Tests

/-! ## States -/

/-- An `Operational` port with no board. -/
def boot : State := { State.reset with portState := .operational, rxTimeout := ⟨1⟩ }

/-- A `Constructed` port with no board. -/
def fresh : State := { State.reset with rxTimeout := ⟨1⟩ }

/-- Board 2, firmware 7, not capable, at node 5 (V48, V60 to V81). -/
def one : State := (boot.register 2 7 false).mapNode 2 5

/-- Boards 2 (at node 5, capable) and 15 (at node 62, not capable). -/
def two : State := ((((boot.register 2 7 true).register 15 9 false).mapNode 2 5).mapNode 15 62)

/-- The same board, stale map. -/
def stale : State := { one with staleMap := true }

/-- `BC_QRW`, boards 0 and 3 capable, the label at 3 (V90 to V97). -/
def bcast : State := { (boot.register 0 1 true).register 3 1 true with mode := .bcQrw, tl := 3 }

/-- `one`, with a unicast command of the given kind waiting for `SEND_DONE`. -/
def sending (p : Pending) : State :=
  { one with phase := .waitSend, inflight := some (Inflight.sent p 5 0), tl := 1 }

/-- `one`, with `READ_QUADLET 2, 4` (label 0) waiting for its response (V70 to V78). -/
def reading : State := { one with phase := .waitRecv, inflight := some (Inflight.sent (.rq 2 4) 5 0), tl := 1 }

/-- `one`, with `READ_BLOCK 2, 0x1000, 8` (label 63) waiting for its response. -/
def readingBlock : State :=
  { one with phase := .waitRecv, inflight := some (Inflight.sent (.rb 2 0x1000 8) 5 63), tl := 0 }

/-- `bcast` after `WRITE_BC_READ_REQUEST 7`, waiting in `WAIT_BC_READ`. -/
def bcWaiting : State := { bcast with tl := 4, bcSeq := 7, phase := .waitRecv, inflight := some Inflight.awaiting }

/-- Boards 2 and 4 registered, with `BOARD_FOR_NODE 5` waiting for a revalidation answer (V46). -/
def asking (p : Pending) : State :=
  { (boot.register 2 1 true).register 4 1 true with phase := .waitReval, inflight := some (Inflight.held p) }

/-- The answer `{2:5, 4:5, 7:1, 3:70}` of V46. -/
def answer46 : RevalMap :=
  ((((Vector.replicate 16 none).set 2 (some 5)).set 4 (some 5)).set 7 (some 1)).set 3 (some 70)

/-- The good trailer `TR`: generation 0, ticks 49 and 4915. -/
def tr : List Byte := [0x00, 0x00, 0x00, 0x00, 0x00, 0x31, 0x13, 0x33]
/-- `QRESP0`: the response to `reading` (V70). -/
def qresp0 : List Byte := [0xFF, 0xFF, 0x00, 0x60, 0xFF, 0xC5, 0x00, 0x00, 0x00, 0x00, 0x00, 0x00, 0xDE, 0xAD,
    0xBE, 0xEF, 0xD9, 0x49, 0x98, 0xA3]
/-- The block response of V30: node 5, label 63. -/
def bresp63 : List Byte := [0xFF, 0xFF, 0xFC, 0x70, 0xFF, 0xC5, 0x00, 0x00, 0x00, 0x00, 0x00, 0x00, 0x00, 0x08,
    0x00, 0x00, 0x65, 0x96, 0xB9, 0x1D, 0x01, 0x02, 0x03, 0x04, 0x05, 0x06, 0x07, 0x08, 0xEB, 0xF4, 0x72, 0x27]
/-- `BRESP0`: the good broadcast response of V90. -/
def bresp0 : List Byte := [0xFF, 0xFF, 0x00, 0x70, 0xFF, 0xC0, 0x00, 0x00, 0x00, 0x00, 0x00, 0x00, 0x00, 0x08,
    0x00, 0x00, 0x35, 0xC4, 0x45, 0x2D, 0x00, 0x07, 0x00, 0x00, 0xAA, 0xBB, 0xCC, 0xDD, 0x9D, 0xF4, 0x1B, 0xED]

/-- The next state, if there is one. -/
def after (i : Instr) (s : State) : Option State :=
  match exec i s with
  | .next t => some t
  | _ => none

/-- What a step put on the interfaces. -/
def outOf (i : Instr) (s : State) : Option (List Output) := (after i s).map fun t => t.out.drop s.out.length

/-- The instruction a message decodes to. -/
def reads (p : Port) (bytes : List Byte) : Option Instr := (decode p bytes).toOption

/-- `n` bytes of 0. -/
def zeros (n : Nat) : List Byte := List.replicate n 0

@[simp] theorem zeros_length (n : Nat) : (zeros n).length = n := List.length_replicate

/-! ## WellFormed refuses -/

theorem test_wf_refuses_bwrite_with_short_tail : (Instr.bwrite ⟨0xFFC5, 0, 0, 0, 0xFFFF, 0⟩ 8 0 0 [1, 2, 3]).wf =
    false := by decide
theorem test_wf_refuses_bwrite_with_data_crc :
    (Instr.bwrite ⟨0xFFC5, 0, 0, 0, 0xFFFF, 0⟩ 4 0 0 [1, 2, 3, 4, 0, 0, 0, 0]).wf = false := by decide
theorem test_wf_refuses_bresp_without_data_crc :
    (Instr.bresp ⟨0xFFFF, 0, 0, 0, 0xFFC5, 0, 0, 0⟩ 4 0 0 [1, 2, 3, 4]).wf = false := by decide
theorem test_wf_refuses_writeBlock_too_long : (Instr.writeBlock 2 0 (zeros 65536)).wf = false := by
  simp [Instr.wf, wfData]
theorem test_wf_refuses_writeBcBlock_too_long : (Instr.writeBcBlock 0 (zeros 65536)).wf = false := by
  simp [Instr.wf, wfData]
theorem test_wf_accepts_bresp : (Instr.bresp ⟨0xFFFF, 0, 0, 0, 0xFFC5, 0, 0, 0⟩ 0 0 0 [0, 0, 0, 0]).wf = true :=
    by decide

/-! ## Decode: a word of every constructor, from R58 to R68, R76, R77 -/

theorem test_decode_qread : reads .codec [0xFF, 0xC2, 0x00, 0x40, 0xFF, 0xFF, 0x00, 0x00, 0x00, 0x00, 0x00, 0x04,
    0x3E, 0x31, 0xC1, 0xC5] =
    some (.qread ⟨0xFFC2, 0, 0, 0, 0xFFFF, 0x04⟩ 0x3E31C1C5) := by decide
theorem test_decode_qwrite : reads .codec
    [0xFF, 0xC1, 0xA8, 0x00, 0xFF, 0xFF, 0x12, 0x34, 0x56, 0x78, 0x9A, 0xBC, 0x01, 0x02, 0x03, 0x04, 0x1F, 0x3B,
        0x60, 0x0F] =
    some (.qwrite ⟨0xFFC1, 42, 0, 0, 0xFFFF, 0x123456789ABC⟩ 0x01020304 0x1F3B600F) := by decide
theorem test_decode_bread : reads .codec
    [0xFF, 0xC5, 0xFC, 0x50, 0xFF, 0xFF, 0x00, 0x00, 0x00, 0x00, 0x10, 0x00, 0x00, 0x08, 0x00, 0x00, 0x16, 0xC1,
        0xFD, 0xB4] =
    some (.bread ⟨0xFFC5, 63, 0, 0, 0xFFFF, 0x1000⟩ 8 0 0x16C1FDB4) := by decide
theorem test_decode_bwrite : reads .codec
    [0xFF, 0xC5, 0x00, 0x10, 0xFF, 0xFF, 0x00, 0x00, 0x00, 0x00, 0x20, 0x00, 0x00, 0x08, 0x00, 0x00, 0x58, 0x60,
        0xC6, 0xE3, 0x11, 0x22, 0x33, 0x44, 0x55, 0x66, 0x77, 0x88] =
    some (.bwrite ⟨0xFFC5, 0, 0, 0, 0xFFFF, 0x2000⟩ 8 0 0x5860C6E3
      [0x11, 0x22, 0x33, 0x44, 0x55, 0x66, 0x77, 0x88]) := by decide
/-- V39d: every field a response has, nonzero. -/
theorem test_decode_qresp : reads .codec
    [0xFF, 0xFF, 0x06, 0x6A, 0xFF, 0xC5, 0x0A, 0xBC, 0x11, 0x22, 0x33, 0x44, 0xDE, 0xAD, 0xBE, 0xEF, 0x05, 0x67,
        0xA9, 0xD3] =
    some (.qresp ⟨0xFFFF, 1, 2, 10, 0xFFC5, 0, 0xABC, 0x11223344⟩ 0xDEADBEEF 0x0567A9D3) := by decide
theorem test_decode_bresp : reads .codec
    [0xFF, 0xFF, 0x00, 0x70, 0xFF, 0xC5, 0x00, 0x00, 0x00, 0x00, 0x00, 0x00, 0x00, 0x00, 0x00, 0x00, 0x29, 0x5C,
        0x9F, 0x9A, 0x00, 0x00, 0x00, 0x00] =
    some (.bresp ⟨0xFFFF, 0, 0, 0, 0xFFC5, 0, 0, 0⟩ 0 0 0x295C9F9A [0x00, 0x00, 0x00, 0x00]) := by decide
theorem test_decode_unknown_tcode : decode .codec (List.replicate 3 0x20#8 ++ List.replicate 17 0x20#8) =
    .error (.unknownTcode 2) := by decide
theorem test_decode_init : reads .cmd [0x01, 0x01] = some (.init true) := by decide
theorem test_decode_shutdown : reads .cmd [0x02] = some .shutdown := by decide
theorem test_decode_setTimeout : reads .cmd [0x03, 0x00, 0x01, 0x02, 0x03, 0x04, 0x05, 0x06, 0x07] =
    some (.setTimeout ⟨0x0001020304050607⟩) := by decide
theorem test_decode_setNoForward : reads .cmd [0x04, 0x01] = some (.setNoForward true) := by decide
theorem test_decode_setProtocol : reads .cmd [0x05, 0x02] = some (.setProtocol 2) := by decide
theorem test_decode_getStatus : reads .cmd [0x06] = some .getStatus := by decide
theorem test_decode_getTiming : reads .cmd [0x07] = some .getTiming := by decide
theorem test_decode_addBoard : reads .cmd [0x10, 0x03, 0x00, 0x00, 0x00, 0x07, 0x01] =
    some (.addBoard 3 7 true) := by decide
theorem test_decode_removeBoard : reads .cmd [0x11, 0x03] = some (.removeBoard 3) := by decide
theorem test_decode_mapNode : reads .cmd [0x12, 0x03, 0x09] = some (.mapNode 3 9) := by decide
theorem test_decode_unmapNode : reads .cmd [0x13, 0x03] = some (.unmapNode 3) := by decide
theorem test_decode_boardExists : reads .cmd [0x18, 0x10] = some (.boardExists 16) := by decide
theorem test_decode_fwVersion : reads .cmd [0x19, 0x03] = some (.fwVersion 3) := by decide
theorem test_decode_nodeForBoard : reads .cmd [0x1A, 0x03] = some (.nodeForBoard 3) := by decide
theorem test_decode_boardForNode : reads .cmd [0x1B, 0xC8] = some (.boardForNode 200) := by decide
theorem test_decode_bcCapableAll : reads .cmd [0x1C] = some .bcCapableAll := by decide
theorem test_decode_readQuadlet : reads .cmd [0x20, 0x02, 0x12, 0x34, 0x56, 0x78, 0x9A, 0xBC] =
    some (.readQuadlet 2 0x123456789ABC) := by decide
theorem test_decode_writeQuadlet : reads .cmd [0x21, 0x02, 0x00, 0x00, 0x00, 0x00, 0x00, 0x04, 0xDE, 0xAD, 0xBE,
    0xEF] =
    some (.writeQuadlet 2 4 0xDEADBEEF) := by decide
theorem test_decode_readBlock : reads .cmd [0x22, 0x05, 0x00, 0x00, 0x00, 0x00, 0x10, 0x00, 0x00, 0x01, 0x00, 0x08] =
    some (.readBlock 5 0x1000 65544) := by decide
theorem test_decode_writeBlock : reads .cmd [0x23, 0x05, 0x00, 0x00, 0x00, 0x00, 0x20, 0x00, 0x00, 0x04, 0x11,
    0x22, 0x33, 0x44] =
    some (.writeBlock 5 0x2000 [0x11, 0x22, 0x33, 0x44]) := by decide
theorem test_decode_writeBcQuadlet : reads .cmd [0x28, 0x00, 0x00, 0x00, 0x00, 0x00, 0x30, 0x00, 0x00, 0x00, 0x01] =
    some (.writeBcQuadlet 0x30 1) := by decide
theorem test_decode_writeBcBlock : reads .cmd [0x29, 0x00, 0x00, 0x00, 0x00, 0x20, 0x00, 0x00, 0x04, 0x11, 0x22,
    0x33, 0x44] =
    some (.writeBcBlock 0x2000 [0x11, 0x22, 0x33, 0x44]) := by decide
theorem test_decode_writeBcReadRequest : reads .cmd [0x2A, 0x01, 0x07] = some (.writeBcReadRequest 0x107) :=
    by decide
theorem test_decode_waitBcRead : reads .cmd [0x2B] = some .waitBcRead := by decide
theorem test_decode_sendDone : reads .event [0x80, 0x01] = some (.sendDone .ok) ∧
    reads .event [0x80, 0x00] = some (.sendDone .fail) := by decide
theorem test_decode_recvDone : reads .event [0x81, 0x00, 0xAA, 0xBB] = some (.recvDone (.bytes [0xAA, 0xBB])) ∧
    reads .event [0x81, 0x01] = some (.recvDone .timeout) ∧ reads .event [0x81, 0x02] =
        some (.recvDone .fail) := by decide
theorem test_decode_revalDone : reads .event (0x82 :: [0x00, 0x00, 0x00, 0x00, 0x01, 0x05, 0x01, 0x46, 0x01, 0x05,
    0x00, 0x00, 0x00, 0x00, 0x01, 0x01] ++
    List.replicate 16 0) = some (.revalDone answer46) := by decide
theorem test_decode_busReset : reads .event [0x83, 0x00, 0x00, 0x01, 0x2A] = some (.busReset 0x12A) := by decide
theorem test_decode_unknown_command : decode .cmd [0x08] = .error (.unknownCommand 8) := by decide
theorem test_decode_unknown_event : decode .event [0x84] = .error (.unknownEvent 0x84) := by decide
theorem test_decode_data_count : decode .cmd [0x23, 0x05, 0x00, 0x00, 0x00, 0x00, 0x20, 0x00, 0x00, 0x05, 0x11,
    0x22, 0x33, 0x44] =
    .error (.badLength 0x23) := by decide

/-! ## The codec -/

/-- V2. -/
theorem test_crc_check_value : crc32 [0x31, 0x32, 0x33, 0x34, 0x35, 0x36, 0x37, 0x38, 0x39] = 0xFC891918 :=
    by decide +kernel
/-- V3, V8. -/
theorem test_crc_one_byte : crc32 [0x00] = 0xB1F7404B ∧ crc32 [0xDE, 0xAD, 0xBE, 0xEF] = 0x7E25E5E7 :=
    by decide +kernel
/-- V20. -/
theorem test_enc_qread : encQread 2 4 0 = [0xFF, 0xC2, 0x00, 0x40, 0xFF, 0xFF, 0x00, 0x00, 0x00, 0x00, 0x00, 0x04,
    0x3E, 0x31, 0xC1, 0xC5] := by decide +kernel
/-- V24. -/
theorem test_enc_qwrite : encQwrite 1 0x123456789ABC 42 0x01020304 =
    [0xFF, 0xC1, 0xA8, 0x00, 0xFF, 0xFF, 0x12, 0x34, 0x56, 0x78, 0x9A, 0xBC, 0x01, 0x02, 0x03, 0x04, 0x1F, 0x3B,
        0x60, 0x0F] := by decide +kernel
/-- V25. -/
theorem test_enc_bread : encBread 5 0x1000 63 8 =
    [0xFF, 0xC5, 0xFC, 0x50, 0xFF, 0xFF, 0x00, 0x00, 0x00, 0x00, 0x10, 0x00, 0x00, 0x08, 0x00, 0x00, 0x16, 0xC1,
        0xFD, 0xB4] := by decide +kernel
/-- V26. -/
theorem test_enc_bwrite : encBwrite 5 0x2000 0 [0x11, 0x22, 0x33, 0x44, 0x55, 0x66, 0x77, 0x88] =
    [0xFF, 0xC5, 0x00, 0x10, 0xFF, 0xFF, 0x00, 0x00, 0x00, 0x00, 0x20, 0x00, 0x00, 0x08, 0x00, 0x00, 0x58, 0x60,
        0xC6, 0xE3, 0x11, 0x22, 0x33, 0x44, 0x55, 0x66, 0x77, 0x88] := by decide +kernel
/-- V29. -/
theorem test_enc_qresp : encQresp 0xFFFF 5 1 0xDEADBEEF 0 =
    [0xFF, 0xFF, 0x04, 0x60, 0xFF, 0xC5, 0x00, 0x00, 0x00, 0x00, 0x00, 0x00, 0xDE, 0xAD, 0xBE, 0xEF, 0xC2, 0x57,
        0xBE, 0x10] := by decide +kernel
/-- V30. -/
theorem test_enc_bresp : encBresp 0xFFFF 5 63 [0x01, 0x02, 0x03, 0x04, 0x05, 0x06, 0x07, 0x08] 0 = bresp63 :=
    by decide +kernel
/-- V32, V33, V34. -/
theorem test_validate_label_and_node :
    validateResponse qresp0 5 6 0 4 = .valid ∧ validateResponse qresp0 5 6 2 4 = .labelMismatch ∧
    validateResponse qresp0 6 6 0 4 = .nodeMismatch ∧ validateResponse (qresp0.take 19) 5 6 0 4 =
        .lengthMismatch := by
  decide +kernel
/-- V36, V37. -/
theorem test_validate_tcode_and_crc :
    validateResponse [0xFF, 0xFF, 0x04, 0x70, 0xFF, 0xC5, 0x00, 0x00, 0x00, 0x00, 0x00, 0x00, 0xDE, 0xAD, 0xBE,
        0xEF, 0x74, 0x9C, 0x7E, 0x4A] 5 6 1 4 = .tcodeMismatch ∧
    validateResponse (qresp0.set 12 0x5E) 5 6 0 4 = .crcFailure ∧
    validateResponse (bresp63.set 20 0) 5 7 63 8 = .crcFailure := by decide +kernel

/-- What the codec answers for a frame, with the CRC verdicts and whether the frame is rebuilt as it is. -/
def verdicts (bytes : List Byte) : Option (Option Bool × Option Bool × Bool) :=
  match reads .codec bytes with
  | some i =>
    match outOf i boot with
    | some [.codec r] => some (r.headerCrcOk, r.dataCrcOk, r.rebuilt == some bytes)
    | _ => none
  | none => none

/-- V20. -/
theorem test_qread : verdicts [0xFF, 0xC2, 0x00, 0x40, 0xFF, 0xFF, 0x00, 0x00, 0x00, 0x00, 0x00, 0x04, 0x3E, 0x31,
    0xC1, 0xC5] = some (some true, none, true) := by
  decide +kernel
/-- V23. -/
theorem test_qwrite : verdicts [0xFF, 0xC2, 0x00, 0x00, 0xFF, 0xFF, 0x00, 0x00, 0x00, 0x00, 0x00, 0x04, 0xDE, 0xAD,
    0xBE, 0xEF, 0xF4, 0xAB, 0x32, 0x88] =
    some (some true, none, true) := by decide +kernel
/-- V25, the last CRC bit flipped. -/
theorem test_bread : verdicts [0xFF, 0xC5, 0xFC, 0x50, 0xFF, 0xFF, 0x00, 0x00, 0x00, 0x00, 0x10, 0x00, 0x00, 0x08,
    0x00, 0x00, 0x16, 0xC1, 0xFD, 0xB5] =
    some (some false, none, false) := by decide +kernel
/-- V27. -/
theorem test_bwrite : verdicts [0xFF, 0xFF, 0x00, 0x10, 0xFF, 0xFF, 0x00, 0x00, 0x00, 0x00, 0x20, 0x00, 0x00, 0x08,
    0x00, 0x00, 0x33, 0xD2, 0xF0, 0x30, 0x11, 0x22, 0x33, 0x44, 0x55, 0x66, 0x77, 0x88] =
    some (some true, none, true) := by decide +kernel
/-- V28. -/
theorem test_qresp : verdicts [0xFF, 0xFF, 0x04, 0x60, 0xFF, 0xC2, 0x00, 0x00, 0x00, 0x00, 0x00, 0x00, 0xDE, 0xAD,
    0xBE, 0xEF, 0x27, 0x92, 0x12, 0xF4] =
    some (some true, none, true) := by decide +kernel
/-- V30, and V39h. -/
theorem test_bresp : verdicts bresp63 = some (some true, some true, true) ∧
    verdicts (bresp63.set 31 0x26) = some (some true, some false, false) := by decide +kernel

/-! ## Life cycle and configuration -/

/-- R112, V100. -/
theorem test_init : after (.init true) fresh = some { boot with out := [.result .ok] } ∧
    outOf (.init false) fresh = some [.result .transportFailure] := by decide +kernel
/-- R113. -/
theorem test_shutdown : (after .shutdown one).map State.portState = some .closed := by decide +kernel
/-- R114. -/
theorem test_setTimeout : (after (.setTimeout ⟨9⟩) boot).map State.rxTimeout = some ⟨9⟩ := by decide +kernel
/-- R115, V66: the next frame starts `01`. -/
theorem test_setNoForward : (after (.setNoForward true) boot).map State.noForward = some true := by decide +kernel
/-- R108, P1: one incapable board refuses. -/
theorem test_setProtocol : outOf (.setProtocol 1) two = some [.result .refusedProtocol] ∧
    (after (.setProtocol 2) boot).map State.mode = some .bcQrw := by decide +kernel
/-- R116, at reset. -/
theorem test_getStatus : outOf .getStatus fresh =
    some [.result (.okValue (.status ⟨.constructed, .seqRw, 0, false, 0, 0, 0, 0, false⟩))] := by decide +kernel
/-- R117's example. -/
theorem test_getTiming : outOf .getTiming (boot.acceptTrailer tr) =
    some [.result (.okValue (.timing ⟨49, 4915, 0, 0⟩))] := by decide +kernel

/-! ## The board-to-node mapper -/

/-- R97's example. -/
theorem test_addBoard : (after (.addBoard 3 7 true) fresh).map (fun t => (t.slot 3, t.inUseMask, t.numBoards)) =
    some (⟨true, 7, true, none⟩, 0x0008, 1) := by decide +kernel
/-- R162, V41: an occupied slot keeps its node and the count drifts. -/
theorem test_addBoard_occupied : (after (.addBoard 2 4 true) one).map (fun t => (t.slot 2, t.inUseMask,
    t.numBoards)) =
    some (⟨true, 4, true, some 5⟩, 0x0004, 2) := by decide +kernel
/-- R98's example, with V40's second remove. -/
theorem test_removeBoard : (after (.removeBoard 2) one).map
      (fun t => ((t.slot 2).present, (t.slot 2).node, t.boardAt 5, t.inUseMask, t.numBoards)) =
      some (false, none, none, 0, 0) ∧ outOf (.removeBoard 3) one = some [.result .notFound] := by decide +kernel
/-- R99's example: the newest assignment wins. -/
theorem test_mapNode : (after (.mapNode 15 5) two).map
      (fun t => ((t.slot 2).node, (t.slot 15).node, t.boardAt 5, t.boardAt 62)) =
      some (none, some 5, some 15, none) := by decide +kernel
/-- R99 (iii), V42. -/
theorem test_mapNode_broadcast : outOf (.mapNode 2 63) one = some [.result .outOfRange] ∧
    outOf (.mapNode 16 99) one = some [.result .outOfRange] := by decide +kernel
/-- R100's example. -/
theorem test_unmapNode : (after (.unmapNode 2) one).map (fun t => ((t.slot 2).node, t.boardAt 5)) =
    some (none, none) := by decide +kernel
/-- V44. -/
theorem test_boardExists : outOf (.boardExists 15) boot = some [.result (.okBool false)] ∧
    outOf (.boardExists 16) boot = some [.result .outOfRange] := by decide +kernel
/-- R104's example, and V40. -/
theorem test_fwVersion : outOf (.fwVersion 2) one = some [.result (.okValue (.num 7))] ∧
    outOf (.fwVersion 5) one = some [.result .notFound] := by decide +kernel
/-- R105's example: the sentinel, and V48: a port that is not `Operational` does not revalidate. -/
theorem test_nodeForBoard : outOf (.nodeForBoard 4) one = some [.result (.okValue (.num 63))] ∧
    outOf (.nodeForBoard 2) { stale with portState := .faulted } = some [.result (.okValue (.num 5))] :=
        by decide +kernel
/-- R101. -/
theorem test_nodeForBoard_stale : (after (.nodeForBoard 2) stale).map (fun t => (t.out, t.phase, t.staleMap)) =
    some ([.revalidate], .waitReval, false) := by decide +kernel
/-- R106's example. -/
theorem test_boardForNode : outOf (.boardForNode 5) one = some [.result (.okValue (.num 2))] ∧
    outOf (.boardForNode 200) stale = some [.result (.okValue (.num 16))] := by decide +kernel
/-- R107, V44. -/
theorem test_bcCapableAll : outOf .bcCapableAll two = some [.result (.okBool false)] ∧
    outOf .bcCapableAll boot = some [.result (.okBool true)] := by decide +kernel

/-! ## Unicast commands -/

/-- P6's board. -/
theorem test_readQuadlet : (after (.readQuadlet 2 4) one).map (fun t => (t.out, t.tl, t.phase)) = some
    ([.send [0x00, 0x00, 0xFF, 0xC5, 0x00, 0x40, 0xFF, 0xFF, 0x00, 0x00, 0x00, 0x00, 0x00, 0x04, 0xDB, 0xF4, 0x6D,
        0x21]], 1, .waitSend) := by decide +kernel
/-- V64: no node. -/
theorem test_readQuadlet_no_node : (after (.readQuadlet 2 4) (boot.register 2 7 false)).map
      (fun t => (t.out, t.tl, t.diagLog)) = some
      ([.diag ⟨.noNode, .rq, some 2, some 0⟩, .result .notFound], 0, [⟨.noNode, .rq, some 2, some 0⟩]) :=
          by decide +kernel
/-- V63: the label wraps. -/
theorem test_writeQuadlet : (after (.writeQuadlet 2 4 1) { one with tl := 63 }).map (fun t => (t.out, t.tl)) = some
    ([.send [0x00, 0x00, 0xFF, 0xC5, 0xFC, 0x00, 0xFF, 0xFF, 0x00, 0x00, 0x00, 0x00, 0x00, 0x04, 0x00, 0x00, 0x00,
        0x01, 0xEE, 0x16, 0x37, 0xD3]], 0) := by decide +kernel
/-- V60: the largest legal length. -/
theorem test_readBlock : outOf (.readBlock 2 0 65532) { one with tl := 1 } = some
    [.send [0x00, 0x00, 0xFF, 0xC5, 0x04, 0x50, 0xFF, 0xFF, 0x00, 0x00, 0x00, 0x00, 0x00, 0x00, 0xFF, 0xFC, 0x00,
        0x00, 0xCD, 0x71, 0x7B, 0x38]] := by decide +kernel
/-- V60, V61: the check order. -/
theorem test_readBlock_checks : outOf (.readBlock 2 0 65536) one = some [.result .invalidLength] ∧
    outOf (.readBlock 3 0 6) one = some [.result .notFound] ∧
    outOf (.readBlock 2 0 8) { one with portState := .constructed } = some [.result .notOperational] :=
        by decide +kernel
/-- R121's example. -/
theorem test_writeBlock : outOf (.writeBlock 2 0x2000 [0x11, 0x22, 0x33, 0x44, 0x55, 0x66, 0x77, 0x88]) one =
    some [.send
    [0x00, 0x00, 0xFF, 0xC5, 0x00, 0x10, 0xFF, 0xFF, 0x00, 0x00, 0x00, 0x00, 0x20, 0x00, 0x00, 0x08, 0x00, 0x00,
        0x58, 0x60, 0xC6, 0xE3, 0x11, 0x22, 0x33, 0x44, 0x55, 0x66, 0x77, 0x88]] := by decide +kernel

/-! ## Broadcast commands -/

/-- V66: `no_forward` and generation 0x2A in the control word. -/
theorem test_writeBcQuadlet : outOf (.writeBcQuadlet 0x30 1)
      { boot with mode := .seqRBcW, noForward := true, busGen := 0x2A, staleMap := true } = some
      [.send [0x01, 0x2A, 0xFF, 0xFF, 0x00, 0x00, 0xFF, 0xFF, 0x00, 0x00, 0x00, 0x00, 0x00, 0x30, 0x00, 0x00, 0x00,
          0x01, 0x67, 0xE8, 0xCF, 0x9F]] := by decide +kernel
/-- V27, V61. -/
theorem test_writeBcBlock : outOf (.writeBcBlock 0x2000 [0x11, 0x22, 0x33, 0x44, 0x55, 0x66, 0x77, 0x88])
      { boot with mode := .seqRBcW } = some
      [.send [0x00, 0x00, 0xFF, 0xFF, 0x00, 0x10, 0xFF, 0xFF, 0x00, 0x00, 0x00, 0x00, 0x20, 0x00, 0x00, 0x08, 0x00,
          0x00, 0x33, 0xD2, 0xF0, 0x30, 0x11, 0x22, 0x33, 0x44, 0x55, 0x66, 0x77, 0x88]] ∧
    outOf (.writeBcBlock 0 [1, 2, 3]) boot = some [.result .protocolUnsupported] := by decide +kernel
/-- V90's request. -/
theorem test_writeBcReadRequest : (after (.writeBcReadRequest 7) bcast).map (fun t => (t.out, t.bcSeq, t.tl)) = some
    ([.send [0x00, 0x00, 0xFF, 0xFF, 0x0C, 0x00, 0xFF, 0xFF, 0x00, 0x00, 0x00, 0x00, 0x18, 0x00, 0x00, 0x07, 0x00,
        0x09, 0x86, 0x7F, 0xA0, 0x33]], 7, 4) := by decide +kernel
/-- R126. -/
theorem test_waitBcRead : (after .waitBcRead bcast).map (fun t => (t.out, t.tl, t.phase)) =
    some ([.receive ⟨1⟩], 3, .waitRecv) := by decide +kernel

/-! ## Transport events -/

/-- R128, V48. -/
theorem test_sendDone : outOf (.sendDone .ok) (sending (.wq 2 4 1)) = some [.result .ok] ∧
    outOf (.sendDone .ok) (sending (.rq 2 4)) = some [.receive ⟨1⟩] := by decide +kernel
/-- P6. -/
theorem test_sendDone_fail : (after (.sendDone .fail) (sending (.wq 2 4 1))).map
    (fun t => (t.portState, t.diagLog, t.tl)) = some (.faulted, [⟨.sendFailure, .wq, some 2, some 0⟩], 1) :=
        by decide +kernel
/-- V70. -/
theorem test_recvDone : (after (.recvDone (.bytes (qresp0 ++ tr))) reading).map
      (fun t => (t.out, t.recvTicks, t.totalTicks, t.phase)) = some
      ([.result (.okQuadlet 0xDEADBEEF)], 49, 4915, .idle) := by decide +kernel
/-- V76: another generation. -/
theorem test_recvDone_generation : (after (.recvDone (.bytes (qresp0 ++ [0x00, 0x07, 0x00, 0x00, 0x00, 0x31, 0x13,
    0x33]))) reading).map
      (fun t => (t.busGen, t.staleMap, t.recvTicks, t.diagLog)) = some
      (7, true, 49, [⟨.genMismatch, .rq, some 2, some 0⟩]) := by decide +kernel
/-- V46. -/
theorem test_revalDone : (after (.revalDone answer46) (asking (.bfn 5))).map
      (fun t => (t.out, (t.slot 2).node, (t.slot 4).node, t.boardAt 5, t.boardAt 1)) = some
      ([.result (.okValue (.num 2))], some 5, none, some 2, none) := by decide +kernel
/-- V47: a bus reset during the query asks again. -/
theorem test_revalDone_again : (after (.revalDone answer46) { asking (.nfb 2) with staleMap := true }).map
      (fun t => (t.out, t.phase, t.staleMap)) = some ([.revalidate], .waitReval, false) := by decide +kernel
/-- R134: modulo 256, and V101. -/
theorem test_busReset : (after (.busReset 0x12A) one).map (fun t => (t.busGen, t.staleMap)) = some (0x2A, true) ∧
    after (.busReset 5) { one with portState := .closed } = some { one with portState := .closed } :=
        by decide +kernel
/-- R160: a reset presented while a command is in flight. -/
theorem test_reset : (match step { reading with input := [.reset] } with
    | .next t => t.phase == .idle && t.portState == .constructed && t.out == [] && t.inflight == none
    | _ => false) = true := by decide +kernel

/-! ## Other configuration functions (R11) -/

/-- Functions that are none of the defaults: `crc32` is the exclusive-or of the bytes. -/
def others : Config.Functions where
  crc32 bs := (bs.foldl (· ^^^ ·) 0#8).setWidth 32
  bcReqData s _ := 0#16 ++ s
  bcSeqOf _ := some 7

theorem xor_foldl (bs : List Byte) (a : Byte) : bs.foldl (· ^^^ ·) a = a ^^^ bs.foldl (· ^^^ ·) 0#8 := by
  induction bs generalizing a with
  | nil => simp
  | cons b bs ih => rw [List.foldl_cons, ih, List.foldl_cons, ih (0#8 ^^^ b), BitVec.zero_xor, BitVec.xor_assoc]

/-- A flipped bit is flipped in the exclusive-or. -/
theorem xor_flipBit (bs : List Byte) (i j : Nat) (hi : i < bs.length) :
    (flipBit bs i j).foldl (· ^^^ ·) 0#8 = bs.foldl (· ^^^ ·) 0#8 ^^^ BitVec.twoPow 8 j := by
  induction bs generalizing i with
  | nil => simp at hi
  | cons b bs ih =>
    cases i with
    | zero =>
      simp only [flipBit, byteAt, List.set_cons_zero, List.getD_cons_zero, List.foldl_cons, BitVec.zero_xor]
      rw [xor_foldl _ (b ^^^ _), xor_foldl _ b]
      ac_rfl
    | succ i =>
      simp only [flipBit, byteAt, List.set_cons_succ, List.getD_cons_succ, List.foldl_cons, BitVec.zero_xor] at ih ⊢
      rw [xor_foldl _ b, xor_foldl bs b, ih i (by simpa using hi), BitVec.xor_assoc]

/-- They keep the assumption of R81. -/
theorem others_detectFlips : DetectsFlips others := by
  refine detectsFlips_iff.2 fun m i j hi hj h => ?_
  have hb := congrArg (fun v => v.getLsbD j) h
  simp [others, xor_flipBit m i j hi, hj, show j < 32 by omega] at hb

def otherMachine : Configuration := ⟨others, others_detectFlips⟩

/-- A function that does not keep it makes no `Configuration`. -/
theorem test_constant_crc_is_no_configuration : ¬ DetectsFlips { functions with crc32 := fun _ => 0 } :=
  fun h => by simpa [checkCrc, computeCrc, flipBit, byteAt, Config.crcSize] using h [0] 0 0 (by decide) (by decide)

/-- A step puts the CRC and the data word of the functions in the frame: `0 ++ seq`, and the exclusive-or. -/
theorem test_configured_step_sends :
    (match otherMachine.step { bcast with input := [.message .cmd [0x2A, 0x12, 0x34]] } with
      | .next t => t.out
      | _ => []) =
      [.send [0x00, 0x00, 0xFF, 0xFF, 0x0C, 0x00, 0xFF, 0xFF, 0x00, 0x00, 0x00, 0x00, 0x18, 0x00, 0x00, 0x00, 0x12,
          0x34, 0x00, 0x00, 0x00, 0x32]] := by decide +kernel

/-- A response is judged by them: one with the exclusive-or as its CRC, which the default refuses, is delivered. -/
theorem test_configured_exec_judges :
    (match otherMachine.exec (.recvDone (.bytes (qresp0.take 16 ++ [0x00, 0x00, 0x00, 0x78] ++ tr))) reading with
      | .next t => t.out
      | _ => []) = [.result (.okQuadlet 0xDEADBEEF)] ∧
    outOf (.recvDone (.bytes (qresp0.take 16 ++ [0x00, 0x00, 0x00, 0x78] ++ tr))) reading =
      some [.diag ⟨.crcFailure, .rq, some 2, some 0⟩, .result .frameValidationFailure] := by decide +kernel

/-! ## Witnesses: a state and operands that meet the hypotheses of each statement -/

theorem witness_DecodeOfEncodeIsTheInstruction :
    (Instr.bresp ⟨0xFFFF, 0, 0, 0, 0xFFC5, 0, 0, 0⟩ 4 0 0 [0x01, 0x02, 0x03, 0x04, 0x00, 0x00, 0x00, 0x00]).wf =
        true ∧
    (Instr.bwrite ⟨0xFFC5, 0, 0, 0, 0xFFFF, 0⟩ 4 0 0 [0x01, 0x02, 0x03, 0x04]).wf = true ∧
    (Instr.writeBlock 2 0 [1, 2, 3]).wf = true := by decide
theorem witness_writeBlock_of_65535_bytes : (Instr.writeBlock 2 0 (zeros 65535)).wf = true := by
  simp [Instr.wf, wfData]

/-- Code bytes next to the tables' ends, and a reserved transaction code in 20 bytes. -/
theorem witness_CodesOutsideTheTablesAreNotInstructions :
    (0x08 : Byte).toNat ∉ [0x01, 0x02, 0x03, 0x04, 0x05, 0x06, 0x07, 0x10, 0x11, 0x12, 0x13, 0x18, 0x19, 0x1A, 0x1B,
      0x1C, 0x20, 0x21, 0x22, 0x23, 0x28, 0x29, 0x2A, 0x2B] ∧
    step { fresh with input := [.message .cmd [0x08]] } = .refused (.undecodable (.unknownCommand 8)) ∧
    (0x84 : Byte).toNat ∉ [0x80, 0x81, 0x82, 0x83] ∧
    step { fresh with input := [.message .event [0x84, 0]] } = .refused (.undecodable (.unknownEvent 0x84)) ∧
    20 ≤ (List.replicate 20 0x20#8).length ∧
    (q0Tcode (quadAt (List.replicate 20 0x20#8) 0)).toNat ∉ [0x0, 0x1, 0x4, 0x5, 0x6, 0x7] ∧
    (List.replicate 15 0x40#8).length < 16 ∧ ((List.replicate 19 0x20#8).length < 20 ∧
      q0Tcode (quadAt (List.replicate 19 0x20#8) 0) ≠ 0x4) := by
  refine ⟨by decide, rfl, by decide, rfl, by decide, by decide, by decide, by decide, by decide⟩

/-- A header of 16 bytes is enough for a QREAD alone (R89). -/
theorem test_decodeHeader_at_its_least_sizes : (decodeHeader (List.replicate 16 0x40#8)).isSome = true ∧
    (decodeHeader (List.replicate 15 0x40#8)).isSome = false ∧
    (decodeHeader (List.replicate 20 0x20#8)).isSome = true ∧
    (decodeHeader (List.replicate 19 0x20#8)).isSome = false := by decide

theorem witness_StepRunsTheDecodedInstruction :
    decode .cmd [0x1C] = .ok .bcCapableAll ∧
    { fresh with input := [.message .cmd [0x1C]] }.input = [.message .cmd [0x1C]] ∧ fresh.input = [] :=
  ⟨rfl, rfl, rfl⟩

/-- Reset itself, and a reset presented while a read is in flight. -/
theorem witness_ResetValues :
    State.reset = State.reset ∧
    ∃ t, { reading with input := [.reset] }.input = .reset :: [] ∧ step { reading with input := [.reset] } =
        .next t :=
  ⟨rfl, _, rfl, rfl⟩

theorem witness_HeaderRoundTrip : (zeros 65535).length ≤ 65535 := by simp

/-- The lengths at which `check_crc` changes, and the first and last bit of a flip. -/
theorem witness_CrcChecksAndDetectsEverySingleBitFlip :
    [0x00#8, 0x00, 0x00].length < 4 ∧ 4 ≤ [0x00#8, 0x00, 0x00, 0x00].length ∧
    checkCrc [0x00, 0x00, 0x00, 0x00] = true ∧ 3 < ([] : List Byte).length + 4 ∧ 0 < ([] : List Byte).length + 4 ∧
    checkCrc (flipBit (([] : List Byte) ++ computeCrc []) 3 7) = false ∧
    checkCrc (flipBit (([] : List Byte) ++ computeCrc []) 0 0) = false := by decide +kernel

/-- A quadlet and a block expectation, and frames that get each verdict. -/
theorem witness_ValidationReportsTheFirstFailingCheck :
    ((0x6 : BitVec 4) = 0x6 ∧ 20 = 20) ∧ ((0x7 : BitVec 4) = 0x7 ∧ 32 = 20 + 8 + 4) ∧
    validateResponse qresp0 5 6 0 4 = .valid ∧ validateResponse bresp63 5 7 63 8 = .valid ∧
    validateResponse bresp63 5 7 63 12 = .lengthMismatch ∧ validateResponse bresp63 6 7 63 8 = .nodeMismatch ∧
    validateResponse [0xFF, 0xFF, 0x04, 0x70, 0xFF, 0xC5, 0x00, 0x00, 0x00, 0x00, 0x00, 0x00, 0xDE, 0xAD, 0xBE,
        0xEF, 0x74, 0x9C, 0x7E, 0x4A] 5 6 1 4 = .tcodeMismatch ∧
    validateResponse bresp63 5 7 62 8 = .labelMismatch ∧ validateResponse (bresp63.set 20 0) 5 7 63 8 =
        .crcFailure := by
  decide +kernel

/-- V90 and V93, and frames that fail a broadcast response's other checks: too short, too long, no payload, a length
that is no multiple of 4, each CRC; and one of another node and label. -/
theorem witness_validateBroadcast_verdicts :
    validateBroadcast bresp0 = .valid ∧ validateBroadcast (bresp0.take 23) = .lengthMismatch ∧
    validateBroadcast (bresp0 ++ [0]) = .lengthMismatch ∧ validateBroadcast (zeros 24) = .lengthMismatch ∧
    validateBroadcast ((bresp0.set 13 6).take 30) = .lengthMismatch ∧
    validateBroadcast [0xFF, 0xFF, 0x00, 0x60, 0xFF, 0xC0, 0x00, 0x00, 0x00, 0x00, 0x00, 0x00, 0x00, 0x08, 0x00,
        0x00, 0x83, 0x0F, 0x85, 0x77, 0x00, 0x07, 0x00, 0x00, 0xAA, 0xBB, 0xCC, 0xDD, 0x9D, 0xF4, 0x1B, 0xED] =
        .tcodeMismatch ∧
    validateBroadcast (bresp0.set 16 0) = .crcFailure ∧ validateBroadcast (bresp0.set 20 1) = .crcFailure ∧
    validateBroadcast bresp63 = .valid := by decide +kernel

theorem witness_EncodedResponsesValidate :
    ([] : List Byte).length ≤ 65535 ∧ (zeros 65535).length ≤ 65535 ∧ (5 : NodeNum) ≠ 6 := by simp

/-- No byte fewer than a trailer splits; a trailer alone does. -/
theorem witness_EthernetFraming :
    (List.replicate 7 0#8).length < 8 ∧ (List.replicate 8 0#8).length = 8 ∧ ethSplit (List.replicate 7 0#8) = none ∧
    ethSplit (List.replicate 8 0#8) = some ([], List.replicate 8 0#8) := by decide

theorem witness_EncodedFramesAreRebuilt : (zeros 65535).length ≤ 65535 ∧
    (encQread 2 4 0, FrameKind.qread, (none : Option Bool)) ∈ [(encQread 2 4 0, FrameKind.qread, none),
        (encQwrite 2 4 0 0, .qwrite, none),
      (encBread 2 4 0 8, .bread, none), (encBwrite 2 4 0 [], .bwrite, none), (encQresp 0xFFFF 2 0 0 0, .qresp, none),
      (encBresp 0xFFFF 2 0 [] 0, .bresp, some true)] ∧
    (encBresp 0xFFFF 2 0 [] 0, FrameKind.bresp, some true) ∈ [(encQread 2 4 0, FrameKind.qread, none),
        (encQwrite 2 4 0 0, .qwrite, none),
      (encBread 2 4 0 8, .bread, none), (encBwrite 2 4 0 [], .bwrite, none), (encQresp 0xFFFF 2 0 0 0, .qresp, none),
      (encBresp 0xFFFF 2 0 [] 0, .bresp, some true)] := by simp

/-- The board operands at both sides of the limit, the closed port, the full count, the open port. -/
theorem witness_AddBoardRegistersAndCounts :
    reading.phase ≠ .idle ∧ boot.phase = .idle ∧ 16 ≤ (16 : Byte).toNat ∧ (15 : Byte).toNat = (15 : BoardId).val ∧
    { boot with portState := .closed }.phase = .idle ∧ { boot with portState := .closed }.portState = .closed ∧
    { boot with numBoards := 0xFFFFFFFF }.numBoards = 0xFFFFFFFF ∧ boot.portState ≠ .closed ∧
    boot.numBoards ≠ 0xFFFFFFFF ∧ { boot with numBoards := 0xFFFFFFFE }.numBoards ≠ 0xFFFFFFFF := by decide +kernel

/-- An empty slot, an occupied one with and without a node, in an open and a closed port. -/
theorem witness_RemoveBoardClearsTheSlot :
    reading.phase ≠ .idle ∧ CountCovers two ∧ two.phase = .idle ∧ 16 ≤ (16 : Byte).toNat ∧ (15 : Byte).toNat =
        (15 : BoardId).val ∧
    (boot.slot 15).present = false ∧ (two.slot 15).present = true ∧ (two.slot 15).node = some 62 ∧
    two.portState ≠ .closed ∧ ({ two with portState := .closed }.slot 15).present = true ∧
    { two with portState := .closed }.portState = .closed ∧ ((boot.register 0 1 true).slot 0).node = none := by
  decide +kernel

theorem witness_RemoveUndoesAddToAnEmptySlot :
    TableInvariants two ∧ two.phase = .idle ∧ two.portState ≠ .closed ∧ two.numBoards ≠ 0xFFFFFFFF ∧
    (two.slot 0).present = false := by decide +kernel

/-- Both sides of each operand limit; a node held by another board, by none, and by the board itself. -/
theorem witness_MapNodeNewestAssignmentWins :
    reading.phase ≠ .idle ∧ two.phase = .idle ∧ 16 ≤ (16 : Byte).toNat ∧ (15 : Byte).toNat = (15 : BoardId).val ∧
    (two.slot 14).present = false ∧ (two.slot 15).present = true ∧ 63 ≤ (63 : Byte).toNat ∧
    (62 : Byte).toNat = (62 : NodeId).val ∧ two.portState ≠ .closed ∧ MapsInverse two ∧
    two.boardAt 5 = some 2 ∧ two.boardAt 62 = some 15 ∧ two.boardAt 0 = none ∧
    { two with portState := .closed }.portState = .closed := by decide +kernel

theorem witness_UnmapNodeFreesTheNode :
    reading.phase ≠ .idle ∧ two.phase = .idle ∧ 16 ≤ (16 : Byte).toNat ∧ (15 : Byte).toNat = (15 : BoardId).val ∧
    (two.slot 14).present = false ∧ (two.slot 15).present = true ∧ two.portState ≠ .closed ∧
    ({ two with portState := .closed }.slot 15).present = true ∧ { two with portState := .closed }.portState =
        .closed := by
  decide +kernel

theorem witness_BoardExistsAnswersTheSlot :
    reading.phase ≠ .idle ∧ boot.phase = .idle ∧ 16 ≤ (16 : Byte).toNat ∧ (15 : Byte).toNat =
        (15 : BoardId).val ∧ boot.portState ≠ .closed ∧
    { boot with portState := .closed }.portState = .closed ∧ MaskMatches boot := by decide +kernel

theorem witness_FwVersionAnswersTheLatchedVersion :
    reading.phase ≠ .idle ∧ two.phase = .idle ∧ 16 ≤ (16 : Byte).toNat ∧ (15 : Byte).toNat = (15 : BoardId).val ∧
    (two.slot 15).present = true ∧ (two.slot 15).fwVersion = 9 ∧ (boot.slot 15).present = false ∧
    two.portState ≠ .closed ∧ { two with portState := .closed }.portState = .closed := by decide +kernel

/-- A mapped board, an unmapped one, a stale map in an `Operational` port and in a `Faulted` one. -/
theorem witness_NodeForBoardAnswersOrRevalidates :
    reading.phase ≠ .idle ∧ two.phase = .idle ∧ two.inflight = none ∧ 16 ≤ (16 : Byte).toNat ∧
        (15 : Byte).toNat = (15 : BoardId).val ∧
    ¬ (two.staleMap = true ∧ two.portState = .operational) ∧ (two.slot 15).node = some 62 ∧ (two.slot 14).node =
        none ∧
    stale.staleMap = true ∧ stale.portState = .operational ∧ stale.phase = .idle ∧ stale.inflight = none ∧
    ¬ ({ stale with portState := .faulted }.staleMap = true ∧ { stale with portState := .faulted }.portState =
        .operational) ∧
    { stale with portState := .closed }.portState = .closed := by decide +kernel

theorem witness_BoardForNodeAnswersOrRevalidates :
    reading.phase ≠ .idle ∧ two.phase = .idle ∧ two.inflight = none ∧ 63 ≤ (63 : Byte).toNat ∧
        (62 : Byte).toNat = (62 : NodeId).val ∧
    ¬ (two.staleMap = true ∧ two.portState = .operational) ∧ two.boardAt 62 = some 15 ∧ two.boardAt 61 = none ∧
    two.portState ≠ .closed ∧ stale.staleMap = true ∧ stale.portState = .operational ∧
    { stale with portState := .closed }.portState = .closed := by decide +kernel

/-- All capable (and none registered), and one registered board that is not. -/
theorem witness_BcCapableAllIsTheAndOverRegisteredBoards :
    reading.phase ≠ .idle ∧ bcast.phase = .idle ∧ bcast.portState ≠ .closed ∧ (∀ b, (bcast.slot b).present =
        true → (bcast.slot b).bcCapable = true) ∧
    (∀ b, (boot.slot b).present = true → (boot.slot b).bcCapable = true) ∧
    two.phase = .idle ∧ two.portState ≠ .closed ∧ (two.slot 15).present = true ∧ (two.slot 15).bcCapable = false ∧
    { boot with portState := .closed }.portState = .closed := by decide +kernel

theorem witness_SetProtocolKeepsTheCapabilityInvariant :
    reading.phase ≠ .idle ∧ (2 : BitVec 2) ≠ 3 ∧ bcast.phase = .idle ∧ bcast.portState ≠ .closed ∧
    (∀ b, (bcast.slot b).present = true → (bcast.slot b).bcCapable = true) ∧
    (two.slot 15).present = true ∧ (two.slot 15).bcCapable = false ∧ two.portState ≠ .closed ∧
    { boot with portState := .closed }.portState = .closed := by decide +kernel

/-- `WAIT_REVAL` with each kind of held command, and answers that give the board a node and none. -/
theorem witness_RevalDoneResumesOrAsksAgain :
    (asking (.nfb 2)).phase = .waitReval ∧ (asking (.nfb 2)).inflight = some (Inflight.held (.nfb 2)) ∧
    (asking (.nfb 2)).staleMap = false ∧ { asking (.nfb 2) with staleMap := true }.staleMap = true ∧
    (asking (.bfn 62)).inflight = some (Inflight.held (.bfn 62)) ∧
    (Pending.rb 2 0 4).unicastBoard = some 2 ∧ (Pending.wb 4 0 [1, 2, 3, 4]).unicastBoard = some 4 ∧
    (((asking (.rb 2 0 4)).installMap answer46).slot 2).node = some 5 ∧
    (((asking (.wb 4 0 [1, 2, 3, 4])).installMap answer46).slot 4).node = none := by decide +kernel

theorem witness_InitFollowsThePortState :
    reading.phase ≠ .idle ∧ fresh.phase = .idle ∧ fresh.portState = .constructed ∧ boot.portState = .operational ∧
    { boot with portState := .faulted }.portState = .faulted ∧ { boot with portState := .faulted }.phase = .idle ∧
    { boot with portState := .closed }.portState = .closed := by decide +kernel

theorem witness_ShutdownAndConfigurationWrites :
    reading.phase ≠ .idle ∧ boot.phase = .idle ∧ boot.portState ≠ .closed ∧
    { boot with portState := .closed }.portState = .closed ∧ { boot with portState := .closed }.phase = .idle := by
  decide +kernel

theorem witness_StatusAndTimingReadOut : reading.phase ≠ .idle ∧ fresh.phase = .idle ∧
    { boot with portState := .closed }.phase = .idle := by decide +kernel

/-- Every check's operands at the limit, and every port state. -/
theorem witness_UnicastChecksInOrder :
    (Instr.readQuadlet 16 4).unicast = some (16, none) ∧ (Instr.readBlock 15 0 65532).unicast = some (15,
        some 65532) ∧
    (Instr.readBlock 15 0 65536).unicast = some (15, some 65536) ∧ (Instr.writeBlock 15 0 []).unicast = some (15,
        some 0) ∧
    (Instr.writeQuadlet 15 0 1).unicast = some (15, none) ∧
    two.phase = .idle ∧ 16 ≤ (16 : Byte).toNat ∧ (15 : Byte).toNat = (15 : BoardId).val ∧ (two.slot 15).present =
        true ∧
    (two.slot 14).present = false ∧ 65532 < 65536 ∧ 65534 % 4 ≠ 0 ∧ (0 < 65532 ∧ 65532 % 4 = 0 ∧ 65532 ≤ 65532) ∧
    (0 < 4 ∧ 4 % 4 = 0 ∧ 4 ≤ 65532) ∧ { two with portState := .faulted }.portState = .faulted ∧
    ({ two with portState := .faulted }.slot 15).present = true ∧ { two with portState :=
        .constructed }.portState = .constructed ∧
    { two with portState := .closed }.portState = .closed := by decide +kernel

theorem witness_UnicastLookup :
    (Instr.readBlock 2 0 4).unicast = some (2, some 4) ∧ (2 : Byte).toNat = (2 : BoardId).val ∧
    (Instr.readBlock 2 0 4).pending 2 = some (.rb 2 0 4) ∧ stale.phase = .idle ∧ stale.inflight = none ∧
    (stale.slot 2).present = true ∧ (0 < 4 ∧ 4 % 4 = 0 ∧ 4 ≤ 65532) ∧ stale.portState = .operational ∧
    stale.staleMap = true ∧ (boot.register 2 7 false).staleMap = false ∧
        ((boot.register 2 7 false).slot 2).node = none ∧
    ((boot.register 2 7 false).slot 2).present = true := by decide +kernel

theorem witness_UnicastSendsItsFrame :
    (15 : Byte).toNat = (15 : BoardId).val ∧ two.phase = .idle ∧ two.portState = .operational ∧ two.staleMap =
        false ∧
    (two.slot 15).present = true ∧ (two.slot 15).node = some 62 ∧
    (0 < (65532 : BitVec 32).toNat ∧ (65532 : BitVec 32).toNat % 4 = 0 ∧ (65532 : BitVec 32).toNat ≤ 65532) ∧
    (0 < [1, 2, 3, 4].length ∧ [1, 2, 3, 4].length % 4 = 0 ∧ [1, 2, 3, 4].length ≤ 65532) := by decide +kernel

/-- A unicast command and a resumption, each of which sends. -/
theorem witness_UnicastNeverBroadcasts :
    (∃ t frame, exec (.readQuadlet 15 4) two = .next t ∧ (Instr.readQuadlet 15 4).unicast ≠ none ∧
      t.out = two.out ++ [.send frame]) ∧
    (∃ t frame, exec (.revalDone answer46) (asking (.rq 2 4)) = .next t ∧
      t.out = (asking (.rq 2 4)).out ++ [.send frame]) := by
  refine ⟨⟨_, _, rfl, by decide, rfl⟩, ?_⟩
  have h : outOf (.revalDone answer46) (asking (.rq 2 4)) =
      some [.send [0x00, 0x00, 0xFF, 0xC5, 0x00, 0x40, 0xFF, 0xFF, 0x00, 0x00, 0x00, 0x00, 0x00, 0x04, 0xDB, 0xF4,
          0x6D, 0x21]] := by decide +kernel
  obtain ⟨t, ht, h⟩ : ∃ t, exec (.revalDone answer46) (asking (.rq 2 4)) = .next t ∧ t.out.drop 0 = _ := by
    unfold outOf after at h
    split at h
    · exact ⟨_, by assumption, Option.some.inj h⟩
    · simp at h
  exact ⟨t, _, ht, h⟩

theorem witness_BroadcastChecksInOrder :
    (Instr.writeBcQuadlet 0 0).broadcast = some ([.seqRBcW, .bcQrw], none) ∧
    (Instr.writeBcBlock 0 [1, 2, 3]).broadcast = some ([.seqRBcW, .bcQrw], some 3) ∧
    (Instr.writeBcBlock 0 [1, 2, 3, 4]).broadcast = some ([.seqRBcW, .bcQrw], some 4) ∧
    Instr.waitBcRead.broadcast = some ([.bcQrw], none) ∧ (Instr.writeBcReadRequest 1).broadcast = some ([.bcQrw],
        none) ∧
    boot.phase = .idle ∧ boot.mode ∉ [Mode.seqRBcW, .bcQrw] ∧ bcast.mode ∈ [Mode.bcQrw] ∧
    Mode.seqRBcW ∉ [Mode.bcQrw] ∧ 3 % 4 ≠ 0 ∧ (0 < 4 ∧ 4 % 4 = 0 ∧ 4 ≤ 65532) ∧
    { bcast with portState := .faulted }.portState = .faulted ∧ { bcast with portState :=
        .faulted }.mode ∈ [Mode.bcQrw] ∧
    { bcast with portState := .constructed }.portState = .constructed := by decide +kernel

theorem witness_BroadcastSendsItsFrame :
    bcast.phase = .idle ∧ bcast.portState = .operational ∧ bcast.mode ≠ .seqRw ∧ bcast.mode = .bcQrw ∧
    { bcast with mode := .seqRBcW }.mode ≠ .seqRw ∧
    (0 < [1, 2, 3, 4].length ∧ [1, 2, 3, 4].length % 4 = 0 ∧ [1, 2, 3, 4].length ≤ 65532) := by decide +kernel

theorem witness_SendDoneEndsWritesAndAwaitsReads :
    (sending (.wq 2 4 1)).phase = .waitSend ∧ (sending (.wq 2 4 1)).inflight = some (Inflight.sent (.wq 2 4 1) 5 0) ∧
    (Inflight.sent (.wq 2 4 1) 5 0).cmd.op ∈ [Op.wq, .wb, .bwq, .bwb, .brr] ∧
    (Inflight.sent (.brr 7) 63 0).cmd.op ∈ [Op.wq, .wb, .bwq, .bwb, .brr] ∧
    (Inflight.sent (.rb 2 0 4) 5 0).cmd.op ∈ [Op.rq, .rb] := by decide +kernel

theorem witness_ReceiveTimeoutAndFailure :
    reading.phase = .waitRecv ∧ reading.inflight = some (Inflight.sent (.rq 2 4) 5 0) ∧
    bcWaiting.phase = .waitRecv ∧ bcWaiting.inflight = some Inflight.awaiting := by decide +kernel

/-- Seven bytes; a frame that fails each of the five checks of R91, the label's that of V75; a broadcast response of
tcode 6 (V93). -/
theorem witness_RejectedResponsesChangeNothing :
    reading.phase = .waitRecv ∧ reading.inflight = some (Inflight.sent (.rq 2 4) 5 0) ∧
    reading.phase.fits reading.inflight = true ∧ (List.replicate 7 0#8).length < 8 ∧ tr.length = 8 ∧
    (Inflight.sent (.rq 2 4) 5 0).node = some 5 ∧ (Inflight.sent (.rq 2 4) 5 0).expTcode = some 6 ∧
    (Inflight.sent (.rq 2 4) 5 0).expTl = some 0 ∧ (Inflight.sent (.rq 2 4) 5 0).expLen = some 4 ∧
    validateResponse (qresp0.take 19) 5 6 0 4 = .lengthMismatch ∧
    validateResponse (qresp0.set 5 0xC6) 5 6 0 4 = .nodeMismatch ∧
    validateResponse (qresp0.set 3 0x70) 5 6 0 4 = .tcodeMismatch ∧
    validateResponse [0xFF, 0xFF, 0x04, 0x60, 0xFF, 0xC5, 0x00, 0x00, 0x00, 0x00, 0x00, 0x00, 0xDE, 0xAD, 0xBE,
        0xEF, 0xC2, 0x57, 0xBE, 0x10] 5 6 0 4 = .labelMismatch ∧
    validateResponse (qresp0.set 12 0xDF) 5 6 0 4 = .crcFailure ∧
    bcWaiting.phase = .waitRecv ∧ bcWaiting.inflight = some Inflight.awaiting ∧
    bcWaiting.phase.fits bcWaiting.inflight = true ∧ Inflight.awaiting.cmd = .wbr ∧
    validateBroadcast [0xFF, 0xFF, 0x00, 0x60, 0xFF, 0xC0, 0x00, 0x00, 0x00, 0x00, 0x00, 0x00, 0x00, 0x08, 0x00,
        0x00, 0x83, 0x0F, 0x85, 0x77, 0x00, 0x07, 0x00, 0x00, 0xAA, 0xBB, 0xCC, 0xDD, 0x9D, 0xF4, 0x1B, 0xED] =
        .tcodeMismatch := by decide +kernel

theorem witness_GenerationMismatchDiscardsTheData :
    reading.phase = .waitRecv ∧ reading.inflight = some (Inflight.sent (.rq 2 4) 5 0) ∧
    reading.phase.fits reading.inflight = true ∧ (7 : Byte) ≠ reading.busGen ∧
    (Inflight.sent (.rq 2 4) 5 0).node = some 5 ∧ (Inflight.sent (.rq 2 4) 5 0).expTcode = some 6 ∧
    (Inflight.sent (.rq 2 4) 5 0).expTl = some 0 ∧ (Inflight.sent (.rq 2 4) 5 0).expLen = some 4 ∧
    validateResponse qresp0 5 6 0 4 = .valid ∧ bcWaiting.phase = .waitRecv ∧
    bcWaiting.phase.fits bcWaiting.inflight = true ∧ (9 : Byte) ≠ bcWaiting.busGen ∧ Inflight.awaiting.cmd = .wbr ∧
    validateBroadcast bresp0 = .valid := by decide +kernel

/-- A quadlet read and a block read. -/
theorem witness_ValidResponseDeliversTheData :
    reading.phase = .waitRecv ∧ reading.inflight = some (Inflight.sent (.rq 2 4) 5 0) ∧
    (Inflight.sent (.rq 2 4) 5 0).node = some 5 ∧ (Inflight.sent (.rq 2 4) 5 0).expTcode = some 6 ∧
    (Inflight.sent (.rq 2 4) 5 0).expTl = some 0 ∧ (Inflight.sent (.rq 2 4) 5 0).expLen = some 4 ∧
    validateResponse qresp0 5 6 0 4 = .valid ∧ (Inflight.sent (.rq 2 4) 5 0).cmd = .rq 2 4 ∧
    readingBlock.phase = .waitRecv ∧ readingBlock.inflight = some (Inflight.sent (.rb 2 0x1000 8) 5 63) ∧
    (Inflight.sent (.rb 2 0x1000 8) 5 63).expTcode = some 7 ∧ (Inflight.sent (.rb 2 0x1000 8) 5 63).expLen = some 8 ∧
    validateResponse bresp63 5 7 63 8 = .valid ∧ (Inflight.sent (.rb 2 0x1000 8) 5 63).cmd = .rb 2 0x1000 8 := by
  decide +kernel

/-- The right tag (V90) and another (V91). -/
theorem witness_BroadcastResponseNeedsTheSequenceTag :
    bcWaiting.phase = .waitRecv ∧ bcWaiting.inflight = some Inflight.awaiting ∧ Inflight.awaiting.cmd = .wbr ∧
    validateBroadcast bresp0 = .valid ∧
    (quadAt ((bresp0.drop 20).take (q3Length (quadAt bresp0 3)).toNat) 0).extractLsb' 16 16 = bcWaiting.bcSeq ∧
    (quadAt ((bresp0.drop 20).take (q3Length (quadAt bresp0 3)).toNat) 0).extractLsb' 16 16 ≠
      { bcWaiting with bcSeq := 8 }.bcSeq ∧ (bcWaiting.slot 1).present = false := by decide +kernel

theorem witness_CapabilityUpdateFollowsTheDraw :
    (two.slot 15).present = true ∧ (two.slot 14).present = false ∧ (15 : BoardId) ≠ 2 := by decide +kernel

theorem witness_BusResetMarksTheMapStale :
    reading.portState ≠ .closed ∧ { boot with portState := .closed }.portState = .closed := by decide +kernel

theorem witness_EventsInTheWrongPhaseAreIgnored :
    boot.phase ≠ .waitSend ∧ boot.phase ≠ .waitRecv ∧ boot.phase ≠ .waitReval ∧ reading.phase ≠ .waitSend := by
  decide +kernel

theorem witness_CommandsInFlightMakeBusy :
    (Instr.addBoard 3 1 true).port = .cmd ∧ (sending (.wq 2 4 1)).phase ≠ .idle ∧ Instr.waitBcRead.port = .cmd ∧
    (asking (.nfb 2)).phase ≠ .idle := by decide +kernel

/-- Idle, and in each phase that waits. -/
theorem witness_StepKeepsTheTableInvariants :
    TableInvariants two ∧ (∃ t, step { two with input := [.message .cmd [0x12, 15, 5]] } = .next t) ∧
    TableInvariants reading ∧ TableInvariants (asking (.nfb 2)) :=
  ⟨by decide +kernel, ⟨_, rfl⟩, by decide +kernel, by decide +kernel⟩

theorem witness_StepKeepsTheInvariant :
    Inv { two with input := [.message .cmd [0x12, 15, 5]] } ∧
    (∃ t, step { two with input := [.message .cmd [0x12, 15, 5]] } = .next t) ∧ Inv reading ∧ Inv readingBlock ∧
    Inv bcWaiting ∧ Inv (sending (.wq 2 4 1)) ∧ Inv (asking (.rq 2 4)) :=
  ⟨by decide +kernel, ⟨_, rfl⟩, by decide +kernel, by decide +kernel, by decide +kernel, by decide +kernel,
    by decide +kernel⟩

/-- A state of the invariant whose step faults, and one whose step refuses. -/
theorem witness_TheMachineStopsOnlyWhereTheSpecDoes :
    Inv { boot with numBoards := 0xFFFFFFFF, input := [.message .cmd [0x10, 0x03, 0x00, 0x00, 0x00, 0x07, 0x01]] } ∧
    step { boot with numBoards := 0xFFFFFFFF, input := [.message .cmd [0x10, 0x03, 0x00, 0x00, 0x00, 0x07, 0x01]] } =
      .fault .countOverflow ∧
    Inv { boot with input := [.message .event []] } ∧
    step { boot with input := [.message .event []] } = .refused (.undecodable .empty) :=
  ⟨by decide +kernel, rfl, by decide +kernel, rfl⟩

/-- A command at once, a command owed, the event that ends it, an event that gives none. -/
theorem witness_EveryCommandGetsExactlyOneResult :
    Inv two ∧ (∃ t, exec .getStatus two = .next t) ∧ (∃ t, exec (.readQuadlet 15 4) two = .next t) ∧
    Inv (sending (.wq 2 4 1)) ∧ (∃ t, exec (.sendDone .ok) (sending (.wq 2 4 1)) = .next t) ∧
    (∃ t, exec (.busReset 1) (sending (.wq 2 4 1)) = .next t) ∧
    { one with input := [.message .event [0x83, 0, 0, 0, 5], .reset] }.runEnded ∧
    (∃ t, step { one with input := [.message .event [0x83, 0, 0, 0, 5], .reset] } = .next t) :=
  ⟨by decide +kernel, ⟨_, rfl⟩, ⟨_, rfl⟩, by decide +kernel, ⟨_, rfl⟩, ⟨_, rfl⟩, by decide +kernel, ⟨_, rfl⟩⟩

/-- R136: a command in flight, or one still to come,
    leaves the run unfinished; a late response does not; after a reset
that discards the command the run has ended (log entry 18). -/
theorem test_runEnded : ¬ reading.runEnded ∧ ¬ { one with input := [.message .cmd [0x1C]] }.runEnded ∧
    { one with input := [.message .event (0x81 :: 0 :: qresp0 ++ tr)] }.runEnded ∧
    reading.platformReset.runEnded ∧ reading.platformReset.results = reading.results := by decide +kernel

/-- Each transition of the table. -/
theorem witness_PortStateTransitions :
    Inv fresh ∧ Inv (sending (.wq 2 4 1)) ∧ Inv reading ∧ Inv two ∧
        (after (.init true) fresh).map State.portState = some .operational ∧ fresh.portState ≠ .operational ∧
    (after (.sendDone .fail) (sending (.wq 2 4 1))).map State.portState = some .faulted ∧
    (after (.recvDone .fail) reading).map State.portState = some .faulted ∧
    (after .shutdown two).map State.portState = some .closed :=
  ⟨by decide +kernel, by decide +kernel, by decide +kernel, by decide +kernel, by decide +kernel⟩

/-- A mode written, a stale map set and cleared, a label advanced. -/
theorem witness_RegistersHaveTheirWritersOnly :
    (∃ t, exec (.setProtocol 2) boot = .next t ∧ t.mode ≠ boot.mode) ∧
    (∃ t, exec (.busReset 1) one = .next t ∧ t.staleMap ≠ one.staleMap) ∧
    (∃ t, exec (.nodeForBoard 2) stale = .next t ∧ t.staleMap ≠ stale.staleMap ∧ t.phase ≠ stale.phase) ∧
    (∃ t, exec (.readQuadlet 2 4) one = .next t ∧ t.tl ≠ one.tl ∧ t.inflight ≠ one.inflight) :=
  ⟨⟨_, rfl, by decide +kernel⟩, ⟨_, rfl, by decide +kernel⟩, ⟨_, rfl, by decide +kernel⟩,
    ⟨_, rfl, by decide +kernel⟩⟩

/-- An instruction that logs, and one that does not. -/
theorem witness_LogGrowsByAtMostOneEntry :
    (∃ t, exec (.recvDone .timeout) reading = .next t ∧ t.diagLog = [⟨.timeout, .rq, some 2, some 0⟩]) ∧
    (∃ t, exec .getStatus boot = .next t ∧ t.diagLog = []) := ⟨⟨_, rfl, by decide +kernel⟩, ⟨_, rfl, rfl⟩⟩

theorem witness_OneLabelPerFrame :
    (∃ t, exec (.readQuadlet 15 4) two = .next t ∧ t.out.countP Output.isSend = two.out.countP Output.isSend + 1) ∧
    (∃ t, exec .waitBcRead bcast = .next t ∧ t.out.countP Output.isSend = bcast.out.countP Output.isSend) :=
  ⟨⟨_, rfl, by decide +kernel⟩, ⟨_, rfl, by decide +kernel⟩⟩

theorem witness_NoRetry :
    (∃ t, exec .waitBcRead bcast = .next t ∧ t.out.countP Output.isReceive ≠ bcast.out.countP Output.isReceive) ∧
    (∃ t, exec (.sendDone .ok) (sending (.rq 2 4)) = .next t ∧
      t.out.countP Output.isReceive ≠ (sending (.rq 2 4)).out.countP Output.isReceive) ∧
    (∃ t, exec (.recvDone .timeout) reading = .next t) ∧ reading.phase = .waitRecv :=
  ⟨⟨_, rfl, by decide +kernel⟩, ⟨_, rfl, by decide +kernel⟩, ⟨_, rfl⟩, rfl⟩

/-- V70 and V90: data reaches the host. -/
theorem witness_DataIsDeliveredOnlyFromACheckedResponse :
    (after (.recvDone (.bytes (qresp0 ++ tr))) reading).map (fun t => t.out.countP Output.carriesData) = some 1 ∧
    reading.out.countP Output.carriesData = 0 ∧
    (after (.recvDone (.bytes (bresp0 ++ tr))) bcWaiting).map (fun t => t.out.countP Output.carriesData) =
        some 1 := by
  decide +kernel

theorem witness_ClosedIsFinal :
    { two with portState := .closed }.portState = .closed ∧ { two with portState := .closed }.phase = .idle ∧
    { two with portState := .closed }.inflight = none ∧ (∃ t, exec .shutdown { two with portState := .closed } =
        .next t) ∧
    (∃ t, exec (.busReset 5) { two with portState := .closed } = .next t) :=
  ⟨rfl, by decide +kernel, by decide +kernel, ⟨_, rfl⟩, ⟨_, rfl⟩⟩

theorem witness_QuadletReadCycleDeliversTheWord :
    two.phase = .idle ∧ two.portState = .operational ∧ two.staleMap = false ∧ (two.slot 15).present = true ∧
    (two.slot 15).node = some 62 := by decide +kernel

theorem witness_BlockReadCycleDeliversThePayload :
    two.phase = .idle ∧ two.portState = .operational ∧ two.staleMap = false ∧ (two.slot 15).present = true ∧
    (two.slot 15).node = some 62 ∧ 0 < [1, 2, 3, 4].length ∧ [1, 2, 3, 4].length % 4 = 0 ∧ [1, 2, 3,
        4].length ≤ 65532 := by
  decide +kernel
theorem witness_block_of_65532_bytes :
    0 < (zeros 65532).length ∧ (zeros 65532).length % 4 = 0 ∧
    (zeros 65532).length ≤ 65532 := by simp

theorem witness_LateResponseIsRejected :
    two.phase = .idle ∧ two.portState = .operational ∧ two.staleMap = false ∧ (two.slot 15).present = true ∧
    (two.slot 15).node = some 62 ∧ tr.length = 8 := by decide +kernel

end Sys2Proof.Tests
end

/-! ## The scope's statements: one step, the results it gives, and the codec's answers (O4, O50, O12) -/

namespace Sys2Proof.Machine

/-! ### What a step does with each presentation -/

theorem step_nil {s : State} (h : s.input = []) : step s = .next s := by
  simp [step, h]

theorem step_cons {s : State} {p : Presentation} {rest : List Presentation} (h : s.input = p :: rest) :
    step s = take p { s with input := rest } := by
  simp [step, h]

theorem take_decoded {port : Port} {bytes : List Byte} {i : Instr} (h : decode port bytes = .ok i) (s : State) :
    take (.message port bytes) s = exec i s := by
  simp [take, h]

theorem take_undecoded {port : Port} {bytes : List Byte} {e : DecodeError} (h : decode port bytes = .error e)
    (s : State) : take (.message port bytes) s = undecoded port bytes e s := by
  simp [take, h]

/-- Settles O4, from what a step does with a presentation and what taking a message that decodes does. -/
theorem stepRunsTheDecodedInstruction : Obligations.StepRunsTheDecodedInstruction := by
  refine ⟨fun s port bytes rest i hin hdec => ?_, fun s hin => step_nil hin⟩
  rw [step_cons hin, take_decoded hdec]

/-- What becomes of a message that spells no instruction, when the machine goes on: the codec has answered it. -/
theorem undecoded_next {port : Port} {bytes : List Byte} {e : DecodeError} {s t : State}
    (h : undecoded port bytes e s = .next t) : t = s.emit (.codec (reportOther bytes)) := by
  cases port with
  | codec => exact (Host.Outcome.next.inj h).symm
  | cmd => cases h
  | event => cases h

/-! ### Results given, and results owed -/

/-- The results the host has been given, with the one that is owed. -/
def State.accounted (s : State) : Nat := s.results + s.owed

theorem State.results_of_out {s t : State} {os : List Output} (h : t.out = s.out ++ os) :
    t.results = s.results + os.countP Output.isResult := by
  rw [State.results, h, List.countP_append, State.results]

theorem State.accounted_of_idle {s : State} (h : s.phase = .idle) : s.accounted = s.results := by
  rw [State.accounted, State.owed, if_pos h, Nat.add_zero]

theorem State.accounted_of_busy {s : State} (h : s.phase ≠ .idle) : s.accounted = s.results + 1 := by
  rw [State.accounted, State.owed, if_neg h]

/-- In the same phase as much is owed as before, so only the results among the new outputs count. -/
theorem State.accounted_of_samePhase {s t : State} {os : List Output} (ho : t.out = s.out ++ os)
    (hp : t.phase = s.phase) : t.accounted = s.accounted + os.countP Output.isResult := by
  rw [State.accounted, State.results_of_out ho, State.owed, hp, State.accounted, State.owed]
  omega

/-- A command that is not in flight is answered by one result. -/
theorem State.accounted_result {s t : State} (r : Result) (ho : t.out = s.out) (hp : t.phase = s.phase) :
    (t.result r).accounted = s.accounted + 1 :=
  State.accounted_of_samePhase (os := [.result r]) (by simp [ho]) hp

/-- The end of a command gives one result and leaves none owed. -/
theorem State.accounted_finish {s t : State} (r : Result) (ho : t.out = s.out) :
    (t.finish r).accounted = s.results + 1 :=
  (State.accounted_of_idle rfl).trans (State.results_of_out (os := [.result r]) (by simp [ho]))

/-- The failure of a command gives one result, behind its log entry, and leaves none owed. -/
theorem State.accounted_fail {s t : State} (f : Inflight) (reason : Reason) (r : Result) (ho : t.out = s.out) :
    (t.fail f reason r).accounted = s.results + 1 :=
  (State.accounted_of_idle rfl).trans
    (State.results_of_out (os := [.diag (f.entry reason), .result r]) (by simp [ho]))

/-- A new wait that gives no result leaves one owed. -/
theorem State.accounted_waiting {s t : State} {o : Output} (ho : t.out = s.out ++ [o]) (hr : o.isResult = false)
    (hp : t.phase ≠ .idle) : t.accounted = s.results + 1 := by
  rw [State.accounted_of_busy hp, State.results_of_out ho]
  simp [hr]

/-- A frame that goes out leaves one result owed. -/
theorem State.accounted_sendRequest {s t : State} (p : Pending) (n : NodeNum) (c : Config.Functions)
    (ho : t.out = s.out) : (t.sendRequest p n c).accounted = s.results + 1 :=
  State.accounted_waiting (o := .send _) (congrArg (· ++ [_]) ho) rfl (by simp [State.sendRequest])

/-- A call of `receive` leaves one result owed. -/
theorem State.accounted_awaitReceive {s t : State} (ho : t.out = s.out) : t.awaitReceive.accounted = s.results + 1 :=
  State.accounted_waiting (o := .receive _) (congrArg (· ++ [_]) ho) rfl (by simp)

/-- A revalidation query, for a command that is held, leaves one result owed. -/
theorem State.accounted_revalidate {s t : State} (ho : t.out = s.out) (hp : t.phase ≠ .idle) :
    (t.emit .revalidate).accounted = s.results + 1 :=
  State.accounted_waiting (o := .revalidate) (congrArg (· ++ [_]) ho) rfl hp

/-- A unicast command past its lookup: without a node it is answered, with one its frame goes out. -/
theorem State.accounted_sendUnicast {s t : State} (p : Pending) (b : BoardId) (c : Config.Functions)
    (ho : t.out = s.out) : (t.sendUnicast p b c).accounted = s.results + 1 := by
  cases hn : (t.slot b).node with
  | none =>
    rw [State.sendUnicast_unmapped hn]
    exact (State.accounted_finish _ rfl).trans
      (congrArg (· + 1) (State.results_of_out (os := [.diag _]) (congrArg (· ++ [_]) ho)))
  | some n =>
    rw [State.sendUnicast_mapped hn]
    exact State.accounted_sendRequest p _ c ho

/-- A command accepted in `IDLE` that is answered, or begins to owe its result, brings one. -/
theorem State.accounted_of_accepted {s t : State} (hidle : s.phase = .idle) (h : t.accounted = s.results + 1) :
    t.accounted = s.accounted + 1 := by
  rw [h, State.accounted_of_idle hidle]

/-- An event that ends a command in flight, or leaves it owing its result, brings none. -/
theorem State.accounted_of_inFlight {s t : State} {p : Phase} (hp : s.phase = p) (hbusy : p ≠ .idle)
    (h : t.accounted = s.results + 1) : t.accounted = s.accounted := by
  rw [h, State.accounted_of_busy (hp ▸ hbusy)]

/-- R15, R37, for every next state an instruction can have: a command brings one result more, given or owed, and nothing
else brings one. -/
theorem Effect.accounted {c : Config.Functions} {s t : State} {i : Instr} (h : Effect c s i t) :
    t.accounted = s.accounted + (if i.port = .cmd then 1 else 0) := by
  cases h with
  -- Answered at once, in the phase it came in.
  | busy hport | answered hport => rw [if_pos hport]; exact State.accounted_result _ rfl rfl
  | inited | closed | timeoutSet | noForwardSet | modeSet | added | removed | mapped | unmapped =>
    exact State.accounted_result _ (by simp) (by simp)
  -- Accepted in `IDLE`: ended there, or in flight from here on.
  | nodeAnswered _ _ hidle | boardAnswered _ _ hidle =>
    exact State.accounted_of_accepted hidle (State.accounted_finish _ rfl)
  | held _ hport _ hidle =>
    rw [if_pos hport]
    exact State.accounted_of_accepted hidle (State.accounted_revalidate rfl (by simp))
  | unicast _ _ hport _ hidle =>
    rw [if_pos hport]
    exact State.accounted_of_accepted hidle (State.accounted_sendUnicast _ _ _ rfl)
  | broadcast _ hport _ _ hidle =>
    rw [if_pos hport]
    exact State.accounted_of_accepted hidle (State.accounted_sendRequest _ _ _ rfl)
  | bcReadRequested _ hidle => exact State.accounted_of_accepted hidle (State.accounted_sendRequest _ _ _ rfl)
  | bcReadAwaited hidle => exact State.accounted_of_accepted hidle (State.accounted_awaitReceive rfl)
  -- No command: a frame answered, an event ignored, a bus reset noted.
  | codec r hport => rw [hport]; exact State.accounted_of_samePhase (os := [.codec r]) rfl rfl
  | ignored hport => rw [hport]; rfl
  | busReset => exact State.accounted_of_samePhase (os := []) (by simp) rfl
  -- The command in flight goes on.
  | readSent _ hp => exact State.accounted_of_inFlight hp (by decide) (State.accounted_awaitReceive rfl)
  | askedAgain m _ hp =>
    exact State.accounted_of_inFlight hp (by decide) (State.accounted_revalidate (by simp) (by simp [hp]))
  | unicastResumed m _ _ hp =>
    exact State.accounted_of_inFlight hp (by decide) (State.accounted_sendUnicast _ _ _ (by simp))
  -- The command in flight ends.
  | sendFailed _ hp | timedOut _ hp | receiveFailed _ hp | rejected _ _ _ hp | resynced _ _ _ hp
  | wrongSequence _ _ _ hp =>
    exact State.accounted_of_inFlight hp (by decide) (State.accounted_fail _ _ _ rfl)
  | writeSent _ hp | delivered _ _ _ _ _ _ _ _ _ hp | deliveredAll _ _ _ _ hp | nodeResumed _ _ _ hp
  | boardResumed _ _ _ hp =>
    exact State.accounted_of_inFlight hp (by decide) (State.accounted_finish _ (by simp))

/-! ### A run that has ended -/

/-- In `IDLE` what is no command can answer a frame or note a bus reset, and does nothing else. -/
theorem Effect.of_idle {c : Config.Functions} {s t : State} {i : Instr} (h : Effect c s i t) (hidle : s.phase = .idle)
    (hi : i.port ≠ .cmd) : t = s ∨ (∃ r, t = s.emit (.codec r)) ∨ ∃ g, t = s.busResetAction g := by
  cases h
  case ignored => exact .inl rfl
  case codec r _ => exact .inr (.inl ⟨r, rfl⟩)
  case busReset g _ => exact .inr (.inr ⟨_, rfl⟩)
  -- Every other next state is a command's, or an event's in the phase that awaits it.
  all_goals simp_all [Instr.port]

/-- From `s` to `t` nothing happened that a host could wait for: the machine is in `IDLE`, no result was given, and what is
still to come is the same. -/
def QuietBetween (s t : State) : Prop := t.input = s.input ∧ t.phase = .idle ∧ t.results = s.results

theorem quiet_emit_codec {s : State} (hidle : s.phase = .idle) (r : CodecReport) : QuietBetween s (s.emit (.codec r)) :=
  ⟨rfl, hidle, State.results_of_out (os := [.codec r]) rfl⟩

theorem exec_quiet {s t : State} {i : Instr} (hidle : s.phase = .idle) (hi : i.port ≠ .cmd)
    (h : exec i s = .next t) : QuietBetween s t := by
  obtain rfl | ⟨r, rfl⟩ | ⟨g, rfl⟩ := (exec_effect h).of_idle hidle hi
  · exact ⟨rfl, hidle, rfl⟩
  · exact quiet_emit_codec hidle r
  · exact ⟨rfl, hidle, rfl⟩

/-- In `IDLE` every presentation that is no host command is quiet, a reset included. -/
theorem take_quiet {s t : State} {p : Presentation} (hidle : s.phase = .idle) (hp : p.isCommand = false)
    (h : take p s = .next t) : QuietBetween s t := by
  cases p with
  | reset =>
    obtain rfl := Host.Outcome.next.inj h
    exact ⟨rfl, rfl, rfl⟩
  | message port bytes =>
    cases hdec : decode port bytes with
    | ok i =>
      rw [take_decoded hdec] at h
      have hport : i.port ≠ .cmd := by
        rw [port_of_decode hdec]
        rintro rfl
        cases hp
      exact exec_quiet hidle hport h
    | error e =>
      rw [take_undecoded hdec] at h
      rw [undecoded_next h]
      exact quiet_emit_codec hidle _

/-- R136: a run that has ended stays ended, and gives no more results. -/
theorem step_runEnded {s t : State} (hs : s.runEnded) (h : step s = .next t) : t.runEnded ∧ t.results = s.results := by
  obtain ⟨hin, hidle⟩ := hs
  cases hl : s.input with
  | nil =>
    obtain rfl := Host.Outcome.next.inj ((step_nil hl).symm.trans h)
    exact ⟨⟨hin, hidle⟩, rfl⟩
  | cons p rest =>
    rw [hl, List.forall_mem_cons] at hin
    rw [step_cons hl] at h
    obtain ⟨hinput, hphase, hresults⟩ := take_quiet (s := { s with input := rest }) hidle hin.1 h
    exact ⟨⟨hinput ▸ hin.2, hphase⟩, hresults⟩

/-- Settles O50, by the account of every effect of an instruction and the quiet of a run that has ended; the account holds
in every state, so the invariant is not used. -/
theorem everyCommandGetsExactlyOneResult : Obligations.EveryCommandGetsExactlyOneResult :=
  ⟨fun _ _ _ _ h => (exec_effect h).accounted, fun _ _ hs h => step_runEnded hs h⟩

/-! ### What the codec answers for a frame -/

/-- The answer for a frame of just its header's size. -/
theorem reportPlain_of_length {f : List Byte} {n : Nat} (h : f.length = n) (rebuilt : List Byte)
    (c : Config.Functions) : reportPlain f n rebuilt c =
      { header := decodeHeader f, headerCrcOk := some (checkCrc f c), dataCrcOk := none, rebuilt := some rebuilt } := by
  simp [reportPlain, regionOk, slice, ← h]

/-- What follows the header, up to `n` bytes of it. -/
theorem slice_after {head : List Byte} {k : Nat} (h : head.length = k) (tail : List Byte) (n : Nat) :
    slice (head ++ tail) k (k + n) = tail.take n := by
  simp [slice, ← h]

/-- The answer for a frame with a payload, by its 20 header bytes and what follows them. -/
theorem reportBlock_append {head : List Byte} (h : head.length = 20) (tail : List Byte) (len : Nat) (dataCrc : Bool)
    (rebuild : List Byte → List Byte) (c : Config.Functions) : reportBlock (head ++ tail) len dataCrc rebuild c =
      { header := decodeHeader (head ++ tail)
        headerCrcOk := some (checkCrc ((head ++ tail).take 20) c)
        dataCrcOk := if dataCrc = true then
            (if len + 4 ≤ tail.length then some (checkCrc (tail.take (len + 4)) c) else none) else none
        rebuilt := if len ≤ tail.length then some (rebuild (tail.take len)) else none } := by
  have hlen (n : Nat) : 20 + n ≤ (head ++ tail).length ↔ n ≤ tail.length := by
    rw [List.length_append, h]; omega
  simp only [reportBlock, regionOk, Nat.add_assoc, hlen, slice_after h]
  simp [slice, h]

/-- A codec step is known by the report it gives. -/
theorem next_codec_congr (s : State) {r r' : CodecReport} (h : r = r') :
    (.next (s.emit (.codec r)) : StepOutcome) = .next { s with out := s.out ++ [.codec r'] } := by
  rw [h]; rfl

/-- Settles O12: a frame of a quadlet kind or a block-read request is the header alone, a block frame the header and its
tail. -/
theorem codecAnswersEveryFrameKind : Obligations.CodecAnswersEveryFrameKind := by
  refine ⟨fun s h data crc => ?_, fun s h crc => ?_, fun s h len ext crc => ?_, fun s h data crc => ?_,
    fun s h len ext crc tail => ?_, fun s h len ext crc tail => ?_⟩
  · exact next_codec_congr s (reportPlain_of_length (Laws.EncodedSize.qwrite h data crc rfl) _ _)
  · exact next_codec_congr s (reportPlain_of_length (Laws.EncodedSize.qread h crc rfl) _ _)
  · exact next_codec_congr s (reportPlain_of_length (Laws.EncodedSize.bread h len ext crc rfl) _ _)
  · exact next_codec_congr s (reportPlain_of_length (Laws.EncodedSize.qresp h data crc rfl) _ _)
  · exact next_codec_congr s (reportBlock_append
      (head := reqHead 0x1#4 h ++ be32 (mkBlockQ3 len ext) ++ be32 crc) rfl tail len.toNat Config.bwriteDataCrc _ _)
  · exact next_codec_congr s (reportBlock_append
      (head := respHead 0x7#4 h ++ be32 (mkBlockQ3 len ext) ++ be32 crc) rfl tail len.toNat true _ _)

end Sys2Proof.Machine

/-! ## The state: its invariants, its writers and its outputs (O47, O48, O33, O51 to O54, O5, O31, O46) -/

namespace Sys2Proof.Machine

/-! ### Reset (R44, R160) -/

@[simp] theorem State.reset_slot (b : BoardId) : State.reset.slot b = Slot.empty := by
  simp [State.slot, State.reset]

@[simp] theorem State.reset_boardAt (n : NodeId) : State.reset.boardAt n = none := by
  simp [State.boardAt, State.reset]

/-- A reset presented in any state leaves nothing of it but the interfaces and the draw counter. -/
theorem step_reset {s t : State} {rest : List Presentation} (hin : s.input = .reset :: rest) (h : step s = .next t) :
    t = { State.reset with out := s.out, input := rest, drawCount := s.drawCount } := by
  rw [step_cons hin] at h
  exact (Host.Outcome.next.inj h).symm

/-- Settles O5: after a reset the state is the reset state, but for the interfaces and the draw counter, which are no
registers. -/
theorem resetValues : Obligations.ResetValues := by
  intro s t rest ht
  obtain ⟨o, inp, d, rfl⟩ : ∃ o inp d, t = { State.reset with out := o, input := inp, drawCount := d } := by
    obtain rfl | ⟨hin, hstep⟩ := ht
    · exact ⟨_, _, _, rfl⟩
    · exact ⟨_, _, _, step_reset hin hstep⟩
  have hslot (b : BoardId) : State.slot { State.reset with out := o, input := inp, drawCount := d } b = Slot.empty :=
    State.reset_slot b
  exact ⟨fun b => by simp [hslot, Slot.empty], State.reset_boardAt, rfl, rfl, rfl, rfl, rfl, rfl, rfl, rfl, rfl, rfl,
    rfl, rfl, rfl, rfl, rfl, rfl, rfl⟩

/-! ### The registers of the composed operations -/

@[simp] theorem State.answerNodeFor_eq (s : State) (b : BoardId) :
    s.answerNodeFor b = s.finish (.okValue (.num (nodeNumber (s.slot b).node))) := rfl

@[simp] theorem State.answerBoardFor_eq (s : State) (n : NodeId) :
    s.answerBoardFor n = s.finish (.okValue (.num (boardNumber (s.boardAt n)))) := rfl

@[simp] theorem State.resync_eq (s : State) (f : Inflight) (g : BitVec 8) :
    s.resync f g = (s.busResetAction g).fail f .genMismatch .frameValidationFailure := rfl

@[simp] theorem State.sendRequest_eq (s : State) (p : Pending) (n : NodeNum) (c : Config.Functions) :
    s.sendRequest p n c = s.advanceLabel.handOver (Inflight.sent p n s.tl) (p.frame n s.tl s.inUseMask c) := rfl

/-- R109 P6 to P8: a unicast command past its lookup writes the label, the sequencer's registers and the log. -/
theorem State.sendUnicast_sequencer (s : State) (p : Pending) (b : BoardId) (c : Config.Functions) :
    s.sendUnicast p b c = { s with
      tl := (s.sendUnicast p b c).tl
      phase := (s.sendUnicast p b c).phase
      inflight := (s.sendUnicast p b c).inflight
      diagLog := (s.sendUnicast p b c).diagLog
      out := (s.sendUnicast p b c).out } := by
  unfold State.sendUnicast
  split <;> rfl

section
variable (s : State) (p : Pending) (b : BoardId) (c : Config.Functions)

@[simp] theorem State.sendUnicast_inUseMask : (s.sendUnicast p b c).inUseMask = s.inUseMask := by
  rw [State.sendUnicast_sequencer]
@[simp] theorem State.sendUnicast_numBoards : (s.sendUnicast p b c).numBoards = s.numBoards := by
  rw [State.sendUnicast_sequencer]
@[simp] theorem State.sendUnicast_portState : (s.sendUnicast p b c).portState = s.portState := by
  rw [State.sendUnicast_sequencer]
@[simp] theorem State.sendUnicast_mode : (s.sendUnicast p b c).mode = s.mode := by
  rw [State.sendUnicast_sequencer]
@[simp] theorem State.sendUnicast_busGen : (s.sendUnicast p b c).busGen = s.busGen := by
  rw [State.sendUnicast_sequencer]
@[simp] theorem State.sendUnicast_staleMap : (s.sendUnicast p b c).staleMap = s.staleMap := by
  rw [State.sendUnicast_sequencer]
@[simp] theorem State.sendUnicast_bcSeq : (s.sendUnicast p b c).bcSeq = s.bcSeq := by
  rw [State.sendUnicast_sequencer]
@[simp] theorem State.sendUnicast_rxTimeout : (s.sendUnicast p b c).rxTimeout = s.rxTimeout := by
  rw [State.sendUnicast_sequencer]
@[simp] theorem State.sendUnicast_noForward : (s.sendUnicast p b c).noForward = s.noForward := by
  rw [State.sendUnicast_sequencer]
@[simp] theorem State.sendUnicast_recvTicks : (s.sendUnicast p b c).recvTicks = s.recvTicks := by
  rw [State.sendUnicast_sequencer]
@[simp] theorem State.sendUnicast_totalTicks : (s.sendUnicast p b c).totalTicks = s.totalTicks := by
  rw [State.sendUnicast_sequencer]
@[simp] theorem State.sendUnicast_trailerFlags : (s.sendUnicast p b c).trailerFlags = s.trailerFlags := by
  rw [State.sendUnicast_sequencer]
@[simp] theorem State.sendUnicast_trailerAux : (s.sendUnicast p b c).trailerAux = s.trailerAux := by
  rw [State.sendUnicast_sequencer]
@[simp] theorem State.sendUnicast_slot (d : BoardId) : (s.sendUnicast p b c).slot d = s.slot d := by
  rw [State.sendUnicast_sequencer]; rfl
@[simp] theorem State.sendUnicast_boardAt (m : NodeId) : (s.sendUnicast p b c).boardAt m = s.boardAt m := by
  rw [State.sendUnicast_sequencer]; rfl

end

/-! ### What one instruction puts out and logs (R36, R111, R149) -/

/-- From `s` to `t` at most one frame is sent and at most one entry logged, not both. -/
inductive Puts (s t : State) : Prop where
  /-- Neither. -/
  | quiet (os : List Output) : t.out = s.out ++ os → os.countP Output.isSend = 0 → os.filterMap Output.entry = [] →
      t.diagLog = s.diagLog → t.tl = s.tl → Puts s t
  /-- A command ends with an entry in the log. -/
  | logged (e : LogEntry) (r : Result) : t.out = s.out ++ [.diag e, .result r] → t.diagLog = s.diagLog ++ [e] →
      t.tl = s.tl → Puts s t
  /-- A frame goes out, with its label. -/
  | sent (frame : List Byte) : t.out = s.out ++ [.send frame] → t.diagLog = s.diagLog → t.tl = s.tl + 1 →
      t.phase = .waitSend → Puts s t

section
variable {s u : State} (hout : u.out = s.out) (hlog : u.diagLog = s.diagLog) (htl : u.tl = s.tl)
include hout hlog htl

/-- A result, at once or at the end of a command, is quiet. -/
theorem Puts.result (r : Result) : Puts s (u.result r) := .quiet [.result r] (by simp [hout]) rfl rfl hlog htl

theorem Puts.finish (r : Result) : Puts s (u.finish r) := .quiet [.result r] (by simp [hout]) rfl rfl hlog htl

theorem Puts.awaitReceive : Puts s u.awaitReceive := .quiet [.receive u.rxTimeout] (by simp [hout]) rfl rfl hlog htl

theorem Puts.revalidate : Puts s (u.emit .revalidate) := .quiet [.revalidate] (by simp [hout]) rfl rfl hlog htl

theorem Puts.fail (f : Inflight) (reason : Reason) (r : Result) : Puts s (u.fail f reason r) :=
  .logged (f.entry reason) r (by simp [hout]) (by simp [hlog]) htl

theorem Puts.sendRequest (p : Pending) (n : NodeNum) (c : Config.Functions) : Puts s (u.sendRequest p n c) :=
  .sent (ethWrap u.noForward u.busGen (p.frame n u.tl u.inUseMask c)) (congrArg (· ++ _) hout) hlog
    (congrArg (· + 1) htl) rfl

/-- A unicast command past its lookup logs that its board has no node, or sends. -/
theorem Puts.sendUnicast (p : Pending) (b : BoardId) (c : Config.Functions) : Puts s (u.sendUnicast p b c) := by
  cases hn : (u.slot b).node with
  | none =>
    rw [State.sendUnicast_unmapped hn]
    exact .logged { reason := .noNode, op := p.op, board := some b, tl := some u.tl } .notFound (by simp [hout])
      (by simp [hlog]) htl
  | some n =>
    rw [State.sendUnicast_mapped hn]
    exact .sendRequest hout hlog htl p _ c

end

/-- What every next state of an instruction has put out. -/
theorem Effect.puts {c : Config.Functions} {s t : State} {i : Instr} (h : Effect c s i t) : Puts s t := by
  cases h with
  | busy | answered => exact .result rfl rfl rfl _
  | inited | closed | timeoutSet | noForwardSet | modeSet | added | removed | mapped | unmapped =>
    exact .result (by simp) (by simp) (by simp) _
  | held => exact .revalidate rfl rfl rfl
  | askedAgain => exact .revalidate (by simp) (by simp) (by simp)
  | readSent | bcReadAwaited => exact .awaitReceive (by simp) (by simp) (by simp)
  | broadcast | bcReadRequested => exact .sendRequest (by simp) (by simp) (by simp) ..
  | unicast => exact .sendUnicast rfl rfl rfl ..
  | unicastResumed => exact .sendUnicast (by simp) (by simp) (by simp) ..
  | sendFailed | timedOut | receiveFailed | rejected | resynced | wrongSequence =>
    exact .fail (by simp) (by simp) (by simp) ..
  | nodeAnswered | boardAnswered | writeSent => exact .finish rfl rfl rfl _
  | delivered | deliveredAll | nodeResumed | boardResumed => exact .finish (by simp) (by simp) (by simp) _
  | codec r => exact .quiet [.codec r] rfl rfl rfl rfl rfl
  | ignored | busReset => exact .quiet [] (by simp) rfl rfl rfl rfl

/-- Settles O53, by what each effect puts out. -/
theorem logGrowsByAtMostOneEntry : Obligations.LogGrowsByAtMostOneEntry := by
  intro i s t h
  cases (exec_effect h).puts with
  | quiet os ho _ hentry hlog _ => exact ⟨[], os, by simp [hlog], by simp, ho, hentry⟩
  | logged e r ho hlog _ => exact ⟨[e], _, hlog, by simp, ho, rfl⟩
  | sent frame ho hlog _ _ => exact ⟨[], _, by simp [hlog], by simp, ho, rfl⟩

/-- Settles O54, by what each effect puts out. -/
theorem oneLabelPerFrame : Obligations.OneLabelPerFrame := by
  intro i s t h
  cases (exec_effect h).puts with
  | quiet os ho hsend _ _ htl => exact .inl ⟨by simp [ho, hsend], htl⟩
  | logged e r ho _ htl => exact .inl ⟨by simp [ho, Output.isSend], htl⟩
  | sent frame ho _ htl hp => exact .inr ⟨by simp [ho, Output.isSend], htl, hp⟩

/-! ### Where a unicast frame goes (R168) -/

/-- R60, R70: the destination id of a frame to a board's node. -/
theorem destId_nodeNum : ∀ n : NodeId, destId (nodeNum n) = 0xFFC0 + BitVec.ofNat 16 n.val := by decide

/-- The frame of a unicast command is addressed to the node it is made for. -/
theorem Pending.frame_dest {p : Pending} {b : BoardId} (h : p.unicastBoard = some b) (n : NodeNum) (l : Label)
    (mask : BitVec 16) (c : Config.Functions) : q0Dest (quadAt (p.frame n l mask c) 0) = destId n := by
  cases p with
  | rq | wq | rb | wb =>
    simp [Pending.frame, encQread, encQwrite, encBread, encBwrite, encBwriteWith, withCrc, reqHead, ownReqHdr]
  | bwq | bwb | brr | wbr | nfb | bfn => cases h

/-- Of the unicast commands and the resumptions, only a unicast command past its lookup sends. -/
theorem Effect.sendUnicast_of_send {c : Config.Functions} {s t : State} {i : Instr} {frame : List Byte}
    (h : Effect c s i t) (hi : i.unicast ≠ none ∨ ∃ m, i = .revalDone m) (ho : t.out = s.out ++ [.send frame]) :
    ∃ (u : State) (p : Pending) (b : BoardId), t = u.sendUnicast p b c ∧ p.unicastBoard = some b ∧ u.out = s.out := by
  cases h with
  | unicast p b _ _ _ _ hb => exact ⟨s, p, b, rfl, hb, rfl⟩
  | unicastResumed m f b _ _ _ hb => exact ⟨_, f.cmd, b, rfl, hb, by simp⟩
  | broadcast p hport hu =>
    obtain hi | ⟨m, rfl⟩ := hi
    · exact absurd hu hi
    · cases hport
  -- The other unicast commands and resumptions put out something else, and the rest is neither.
  | _ => simp_all [Instr.unicast]

/-- Settles O33: the node is one of the node table's, so its number is below 63. -/
theorem unicastNeverBroadcasts : Obligations.UnicastNeverBroadcasts := by
  intro s t i frame h hi ho
  obtain ⟨u, p, b, rfl, hb, hu⟩ := (exec_effect h).sendUnicast_of_send hi ho
  cases hn : (u.slot b).node with
  | none =>
    rw [State.sendUnicast_unmapped hn] at ho
    simp [hu] at ho
  | some n =>
    rw [State.sendUnicast_mapped hn] at ho
    simp only [State.sendRequest_eq, State.handOver_out, State.advanceLabel_out, hu, List.append_cancel_left_eq,
      List.cons.injEq, Output.send.injEq, and_true] at ho
    subst ho
    exact ⟨n, (Pending.frame_dest hb ..).trans (destId_nodeNum n)⟩

/-! ### The lookup of a unicast command (R101, R109) -/

/-- A unicast command whose checks pass goes to its lookup. -/
theorem exec_unicast {s : State} {i : Instr} {b : Byte} {bid : BoardId} {p : Pending} {len : Option Nat}
    (hi : i.unicast = some (b, len)) (hb : b.toNat = bid.val) (hp : i.pending bid = some p) (hidle : s.phase = .idle)
    (hpres : (s.slot bid).present = true) (hlen : ∀ l, len = some l → 0 < l ∧ l % 4 = 0 ∧ l ≤ 65532)
    (ho : s.portState = .operational) :
    exec i s = .next (s.lookup p fun s => s.sendUnicast p bid functions) := by
  have hpro (k : BoardId → StepOutcome) : unicastPrologue s b k = k bid := by
    rw [unicastPrologue, whenIdle_idle hidle, withBoard_of hb, whenRegistered_of hpres]
  have hgo : unicastGo s p bid functions = .next (s.lookup p fun s => s.sendUnicast p bid functions) :=
    whenOperational_of ho _
  cases i with
  | readQuadlet | writeQuadlet =>
    obtain ⟨rfl, -⟩ := Prod.mk.inj (Option.some.inj hi)
    obtain rfl := Option.some.inj hp
    exact (hpro _).trans hgo
  | readBlock | writeBlock =>
    obtain ⟨rfl, rfl⟩ := Prod.mk.inj (Option.some.inj hi)
    obtain rfl := Option.some.inj hp
    exact (hpro _).trans ((whenLength_of (hlen _ rfl) ..).trans hgo)
  | _ => cases hi

/-- Settles O31, by the two outcomes of the lookup. -/
theorem unicastLookup : Obligations.UnicastLookup := by
  intro s i b bid p len hi hb hp hidle hnone hpres hlen ho
  rw [exec_unicast hi hb hp hidle hpres hlen ho]
  constructor
  · intro hstale
    rw [State.lookup_stale hstale ho]
    rfl
  · intro hfresh hnode
    rw [State.lookup_fresh (by simp [hfresh]), State.sendUnicast_unmapped hnode,
      State.finish_idle (s := s.logEntry _) hidle hnone]
    rfl

/-! ### The transitions of the port state (R152) -/

/-- Every effect on the port state, with what holds where it happens. -/
theorem Effect.portState {c : Config.Functions} {s t : State} {i : Instr} (h : Effect c s i t) :
    t.portState = s.portState ∨
    (s.portState = .constructed ∧ i = .init true ∧ t.portState = .operational) ∨
    (s.phase ≠ .idle ∧ (i = .sendDone .fail ∨ i = .recvDone .fail) ∧ t.portState = .faulted) ∨
    (i = .shutdown ∧ t.portState = .closed) := by
  cases h with
  | inited _ hs => exact .inr (.inl ⟨hs, rfl, rfl⟩)
  | closed => exact .inr (.inr (.inr ⟨rfl, rfl⟩))
  | sendFailed f hp => exact .inr (.inr (.inl ⟨by simp [hp], .inl rfl, rfl⟩))
  | receiveFailed f hp => exact .inr (.inr (.inl ⟨by simp [hp], .inr rfl, rfl⟩))
  | _ => exact .inl (by simp)

/-- Settles O51: where a waiting phase is left for `Faulted`, the invariant says that the port was `Operational`. -/
theorem portStateTransitions : Obligations.PortStateTransitions := by
  intro i s t ⟨_, _, hop, _, _⟩ h hne
  obtain he | he | ⟨hp, hi, ht⟩ | he := (exec_effect h).portState
  · exact absurd he hne
  · exact .inl he
  · exact .inr (.inl ⟨hop hp, hi, ht⟩)
  · exact .inr (.inr he)

/-! ### The node maps, written without the rest of the board table (R19, R21) -/

/-- From `s` to `t` no slot changes but in its node. -/
def NodesOnly (s t : State) : Prop := ∀ b, ∃ n, t.slot b = { s.slot b with node := n }

theorem NodesOnly.refl (s : State) : NodesOnly s s := fun _ => ⟨_, rfl⟩

theorem NodesOnly.trans {s t u : State} (h : NodesOnly s t) (h' : NodesOnly t u) : NodesOnly s u := by
  intro b
  obtain ⟨n, hn⟩ := h b
  obtain ⟨m, hm⟩ := h' b
  exact ⟨m, by rw [hm, hn]⟩

theorem NodesOnly.present {s t : State} (h : NodesOnly s t) (b : BoardId) :
    (t.slot b).present = (s.slot b).present := by
  obtain ⟨n, hn⟩ := h b
  rw [hn]

theorem NodesOnly.fwVersion {s t : State} (h : NodesOnly s t) (b : BoardId) :
    (t.slot b).fwVersion = (s.slot b).fwVersion := by
  obtain ⟨n, hn⟩ := h b
  rw [hn]

theorem NodesOnly.bcCapable {s t : State} (h : NodesOnly s t) (b : BoardId) :
    (t.slot b).bcCapable = (s.slot b).bcCapable := by
  obtain ⟨n, hn⟩ := h b
  rw [hn]

/-- A slot that gets a node while the others stay. -/
theorem NodesOnly.of_slot {s t : State} {b : BoardId} {n : Option NodeId}
    (h : ∀ c, t.slot c = if c = b then { s.slot b with node := n } else s.slot c) : NodesOnly s t := by
  intro c
  rw [h]
  split
  · next hc => exact ⟨n, by rw [hc]⟩
  · exact ⟨_, rfl⟩

theorem nodesOnly_clearMap (s : State) : NodesOnly s s.clearMap := fun b => ⟨none, State.clearMap_slot s b⟩

theorem nodesOnly_unassign (s : State) (b : BoardId) : NodesOnly s (s.unassign b) := .of_slot (State.unassign_slot s b)

theorem nodesOnly_assign (s : State) (b : BoardId) (n : NodeId) : NodesOnly s (s.assign b n) :=
  .of_slot (State.assign_slot s b n)

theorem nodesOnly_freeNodeOf (s : State) (b : BoardId) : NodesOnly s (s.freeNodeOf b) :=
  fun c => ⟨_, State.freeNodeOf_slot s b c⟩

theorem nodesOnly_stealNode (s : State) (n : NodeId) (b : BoardId) : NodesOnly s (s.stealNode n b) := by
  intro c
  rw [State.stealNode_slot]
  split
  · exact ⟨none, rfl⟩
  · exact ⟨_, rfl⟩

theorem nodesOnly_mapNode (s : State) (b : BoardId) (n : NodeId) : NodesOnly s (s.mapNode b n) :=
  ((nodesOnly_freeNodeOf s b).trans (nodesOnly_stealNode _ n b)).trans (nodesOnly_assign _ b n)

theorem nodesOnly_installOne (m : RevalMap) (s : State) (b : BoardId) : NodesOnly s (State.installOne m s b) := by
  unfold State.installOne
  split
  · split
    · exact nodesOnly_assign s b _
    · exact .refl s
  · exact .refl s

theorem nodesOnly_installFold (m : RevalMap) (l : List BoardId) (s : State) :
    NodesOnly s (l.foldl (State.installOne m) s) := by
  induction l generalizing s with
  | nil => exact .refl s
  | cons b l ih => exact (nodesOnly_installOne m s b).trans (ih _)

theorem nodesOnly_installMap (s : State) (m : RevalMap) : NodesOnly s (s.installMap m) := by
  unfold State.installMap
  exact (nodesOnly_clearMap s).trans (nodesOnly_installFold m _ _)

/-! ### The board table, field by field -/

@[simp] theorem State.unassign_present (s : State) (b c : BoardId) :
    ((s.unassign b).slot c).present = (s.slot c).present := (nodesOnly_unassign s b).present c
@[simp] theorem State.unassign_fwVersion (s : State) (b c : BoardId) :
    ((s.unassign b).slot c).fwVersion = (s.slot c).fwVersion := (nodesOnly_unassign s b).fwVersion c
@[simp] theorem State.unassign_bcCapable (s : State) (b c : BoardId) :
    ((s.unassign b).slot c).bcCapable = (s.slot c).bcCapable := (nodesOnly_unassign s b).bcCapable c

@[simp] theorem State.mapNode_present (s : State) (b c : BoardId) (n : NodeId) :
    ((s.mapNode b n).slot c).present = (s.slot c).present := (nodesOnly_mapNode s b n).present c
@[simp] theorem State.mapNode_fwVersion (s : State) (b c : BoardId) (n : NodeId) :
    ((s.mapNode b n).slot c).fwVersion = (s.slot c).fwVersion := (nodesOnly_mapNode s b n).fwVersion c
@[simp] theorem State.mapNode_bcCapable (s : State) (b c : BoardId) (n : NodeId) :
    ((s.mapNode b n).slot c).bcCapable = (s.slot c).bcCapable := (nodesOnly_mapNode s b n).bcCapable c

@[simp] theorem State.installMap_present (s : State) (m : RevalMap) (c : BoardId) :
    ((s.installMap m).slot c).present = (s.slot c).present := (nodesOnly_installMap s m).present c
@[simp] theorem State.installMap_fwVersion (s : State) (m : RevalMap) (c : BoardId) :
    ((s.installMap m).slot c).fwVersion = (s.slot c).fwVersion := (nodesOnly_installMap s m).fwVersion c
@[simp] theorem State.installMap_bcCapable (s : State) (m : RevalMap) (c : BoardId) :
    ((s.installMap m).slot c).bcCapable = (s.slot c).bcCapable := (nodesOnly_installMap s m).bcCapable c

@[simp] theorem State.register_node (s : State) (b c : BoardId) (fw : Quadlet) (cap : Bool) :
    ((s.register b fw cap).slot c).node = (s.slot c).node := by
  rw [State.register_slot]; split <;> simp_all

@[simp] theorem State.unregister_bcCapable (s : State) (b c : BoardId) :
    ((s.unregister b).slot c).bcCapable = (s.slot c).bcCapable := by
  rw [State.unregister_slot]; split <;> simp_all

@[simp] theorem State.capUpdate_present (s : State) (b c : BoardId) :
    ((s.capUpdate b).slot c).present = (s.slot c).present := by
  rw [State.capUpdate_slot]; split <;> simp_all
@[simp] theorem State.capUpdate_fwVersion (s : State) (b c : BoardId) :
    ((s.capUpdate b).slot c).fwVersion = (s.slot c).fwVersion := by
  rw [State.capUpdate_slot]; split <;> simp_all
@[simp] theorem State.capUpdate_node (s : State) (b c : BoardId) :
    ((s.capUpdate b).slot c).node = (s.slot c).node := by
  rw [State.capUpdate_slot]; split <;> simp_all

@[simp] theorem State.capUpdateAll_present (s : State) (c : BoardId) :
    (s.capUpdateAll.slot c).present = (s.slot c).present := by
  rw [State.capUpdateAll_slot]; split <;> rfl
@[simp] theorem State.capUpdateAll_fwVersion (s : State) (c : BoardId) :
    (s.capUpdateAll.slot c).fwVersion = (s.slot c).fwVersion := by
  rw [State.capUpdateAll_slot]; split <;> rfl
@[simp] theorem State.capUpdateAll_node (s : State) (c : BoardId) :
    (s.capUpdateAll.slot c).node = (s.slot c).node := by
  rw [State.capUpdateAll_slot]; split <;> rfl

/-! ### Who writes each register (R19 to R36) -/

section
variable {c : Config.Functions} {s t : State} {i : Instr} (h : Effect c s i t)
include h

theorem Effect.mode_writer : t.mode = s.mode ∨ ∃ m, i = .setProtocol m := by
  cases h with
  | modeSet m => exact .inr ⟨m, rfl⟩
  | _ => exact .inl (by simp)

theorem Effect.rxTimeout_writer : t.rxTimeout = s.rxTimeout ∨ ∃ d, i = .setTimeout d := by
  cases h with
  | timeoutSet d => exact .inr ⟨d, rfl⟩
  | _ => exact .inl (by simp)

theorem Effect.noForward_writer : t.noForward = s.noForward ∨ ∃ f, i = .setNoForward f := by
  cases h with
  | noForwardSet f => exact .inr ⟨f, rfl⟩
  | _ => exact .inl (by simp)

theorem Effect.bcSeq_writer : t.bcSeq = s.bcSeq ∨ ∃ q, i = .writeBcReadRequest q := by
  cases h with
  | bcReadRequested q => exact .inr ⟨q, rfl⟩
  | _ => exact .inl (by simp)

/-- R19, R20: the registered boards, the mask and the count. -/
theorem Effect.boards_writer :
    (t.inUseMask = s.inUseMask ∧ t.numBoards = s.numBoards ∧
      ∀ b, (t.slot b).present = (s.slot b).present ∧ (t.slot b).fwVersion = (s.slot b).fwVersion) ∨
    (∃ b fw cap, i = .addBoard b fw cap) ∨ ∃ b, i = .removeBoard b := by
  cases h with
  | added b _ fw cap => exact .inr (.inl ⟨b, fw, cap, rfl⟩)
  | removed b => exact .inr (.inr ⟨b, rfl⟩)
  | mapped | unmapped | unicast | unicastResumed | delivered | deliveredAll | nodeResumed | boardResumed =>
    exact .inl ⟨by simp, by simp, fun b => ⟨by simp, by simp⟩⟩
  | askedAgain m =>
    exact .inl ⟨by simp, by simp, fun b => ⟨State.installMap_present s m b, State.installMap_fwVersion s m b⟩⟩
  | _ => exact .inl ⟨rfl, rfl, fun b => ⟨rfl, rfl⟩⟩

theorem Effect.bcCapable_writer :
    (∀ b, (t.slot b).bcCapable = (s.slot b).bcCapable) ∨ (∃ b fw cap, i = .addBoard b fw cap) ∨
    ∃ rx, i = .recvDone (.bytes rx) := by
  cases h with
  | added b _ fw cap => exact .inr (.inl ⟨b, fw, cap, rfl⟩)
  | delivered | deliveredAll => exact .inr (.inr ⟨_, rfl⟩)
  | removed | mapped | unmapped | unicast | unicastResumed | nodeResumed | boardResumed =>
    exact .inl fun b => by simp
  | askedAgain m => exact .inl (State.installMap_bcCapable s m)
  | _ => exact .inl fun b => rfl

/-- R19, R21: the two node maps. -/
theorem Effect.maps_writer :
    ((∀ b, (t.slot b).node = (s.slot b).node) ∧ ∀ n, t.boardAt n = s.boardAt n) ∨
    (∃ b, i = .removeBoard b) ∨ (∃ b n, i = .mapNode b n) ∨ (∃ b, i = .unmapNode b) ∨ ∃ m, i = .revalDone m := by
  cases h with
  | removed b => exact .inr (.inl ⟨b, rfl⟩)
  | mapped b n => exact .inr (.inr (.inl ⟨b, n, rfl⟩))
  | unmapped b => exact .inr (.inr (.inr (.inl ⟨b, rfl⟩)))
  | askedAgain m | nodeResumed m | boardResumed m | unicastResumed m => exact .inr (.inr (.inr (.inr ⟨m, rfl⟩)))
  | added | unicast | delivered | deliveredAll => exact .inl ⟨fun b => by simp, fun n => by simp⟩
  | _ => exact .inl ⟨fun b => rfl, fun n => rfl⟩

theorem Effect.busGen_writer :
    t.busGen = s.busGen ∨ (∃ g, i = .busReset g) ∨ ∃ rx, i = .recvDone (.bytes rx) := by
  cases h with
  | busReset g => exact .inr (.inl ⟨g, rfl⟩)
  | resynced => exact .inr (.inr ⟨_, rfl⟩)
  | _ => exact .inl (by simp)

/-- R31: the four registers of an accepted trailer. -/
theorem Effect.trailer_writer :
    (t.recvTicks = s.recvTicks ∧ t.totalTicks = s.totalTicks ∧ t.trailerFlags = s.trailerFlags ∧
      t.trailerAux = s.trailerAux) ∨ ∃ rx, i = .recvDone (.bytes rx) := by
  cases h with
  | resynced | wrongSequence | delivered | deliveredAll => exact .inr ⟨_, rfl⟩
  | _ => exact .inl ⟨by simp, by simp, by simp, by simp⟩

/-- R26: set by the bus-reset action, cleared where a revalidation query goes out. -/
theorem Effect.staleMap_writer :
    t.staleMap = s.staleMap ∨
    (t.staleMap = true ∧ ((∃ g, i = .busReset g) ∨ ((∃ rx, i = .recvDone (.bytes rx)) ∧ t.busGen ≠ s.busGen))) ∨
    (t.staleMap = false ∧ t.phase = .waitReval ∧ t.out = s.out ++ [.revalidate] ∧
      (i.looksUp = true ∨ ∃ m, i = .revalDone m)) := by
  cases h with
  | busReset g => exact .inr (.inl ⟨rfl, .inl ⟨g, rfl⟩⟩)
  | resynced f fr tr _ _ _ hg => exact .inr (.inl ⟨rfl, .inr ⟨⟨_, rfl⟩, hg⟩⟩)
  | held p _ hl => exact .inr (.inr ⟨rfl, rfl, rfl, .inl hl⟩)
  | askedAgain m f hp => exact .inr (.inr ⟨rfl, by simp [hp], by simp, .inr ⟨m, rfl⟩⟩)
  | _ => exact .inl (by simp)

/-- R33, R34: the sequencer's two registers. -/
theorem Effect.sequencer_writer :
    (t.phase = s.phase ∧ t.inflight = s.inflight) ∨ i.looksUp = true ∨ i.broadcast ≠ none ∨
    (∃ r, i = .sendDone r) ∨ (∃ r, i = .recvDone r) ∨ ∃ m, i = .revalDone m := by
  cases h with
  | held _ _ hl => exact .inr (.inl hl)
  | nodeAnswered | boardAnswered => exact .inr (.inl rfl)
  | unicast _ _ _ hu => exact .inr (.inl (Instr.looksUp_of_unicast hu))
  | broadcast _ _ _ hb => exact .inr (.inr (.inl hb))
  | bcReadRequested | bcReadAwaited => exact .inr (.inr (.inl (by simp [Instr.broadcast])))
  | sendFailed | writeSent | readSent => exact .inr (.inr (.inr (.inl ⟨_, rfl⟩)))
  | timedOut | receiveFailed | rejected | resynced | wrongSequence | delivered | deliveredAll =>
    exact .inr (.inr (.inr (.inr (.inl ⟨_, rfl⟩))))
  | askedAgain | nodeResumed | boardResumed | unicastResumed =>
    exact .inr (.inr (.inr (.inr (.inr ⟨_, rfl⟩))))
  | _ => exact .inl ⟨by simp, by simp⟩

theorem Effect.portState_writer :
    t.portState = s.portState ∨ (i = .init true ∧ t.portState = .operational) ∨
    ((i = .sendDone .fail ∨ i = .recvDone .fail) ∧ t.portState = .faulted) ∨
    (i = .shutdown ∧ t.portState = .closed) := by
  obtain he | ⟨-, he⟩ | ⟨-, he⟩ | he := h.portState
  · exact .inl he
  · exact .inr (.inl he)
  · exact .inr (.inr (.inl he))
  · exact .inr (.inr (.inr he))

/-- R27: a label is allocated with its frame, by a command that sends or one that resumes. -/
theorem Effect.tl_writer :
    t.tl = s.tl ∨ (t.tl = s.tl + 1 ∧ t.phase = .waitSend ∧
      (i.unicast ≠ none ∨ i.broadcast ≠ none ∨ ∃ m, i = .revalDone m)) := by
  have hputs := h.puts
  cases h with
  | unicast _ _ _ hu =>
    cases hputs with
    | quiet _ _ _ _ _ htl | logged _ _ _ _ htl => exact .inl htl
    | sent _ _ _ htl hp => exact .inr ⟨htl, hp, .inl hu⟩
  | unicastResumed m =>
    cases hputs with
    | quiet _ _ _ _ _ htl | logged _ _ _ _ htl => exact .inl htl
    | sent _ _ _ htl hp => exact .inr ⟨htl, hp, .inr (.inr ⟨m, rfl⟩)⟩
  | broadcast _ _ _ hb => exact .inr ⟨rfl, rfl, .inr (.inl hb)⟩
  | bcReadRequested => exact .inr ⟨rfl, rfl, .inr (.inl (by simp [Instr.broadcast]))⟩
  | _ => exact .inl (by simp)

theorem Effect.diagLog_writer :
    t.diagLog = s.diagLog ∨ i.unicast ≠ none ∨ (∃ r, i = .sendDone r) ∨ (∃ r, i = .recvDone r) ∨
    ∃ m, i = .revalDone m := by
  cases h with
  | unicast _ _ _ hu => exact .inr (.inl hu)
  | sendFailed => exact .inr (.inr (.inl ⟨_, rfl⟩))
  | timedOut | receiveFailed | rejected | resynced | wrongSequence => exact .inr (.inr (.inr (.inl ⟨_, rfl⟩)))
  | unicastResumed => exact .inr (.inr (.inr (.inr ⟨_, rfl⟩)))
  | _ => exact .inl (by simp)

end

/-- Settles O52, register by register. -/
theorem registersHaveTheirWritersOnly : Obligations.RegistersHaveTheirWritersOnly := by
  intro i s t h
  have he := exec_effect h
  exact ⟨he.mode_writer, he.rxTimeout_writer, he.noForward_writer, he.bcSeq_writer, he.boards_writer,
    he.bcCapable_writer, he.maps_writer, he.busGen_writer, he.trailer_writer, he.staleMap_writer,
    he.sequencer_writer, he.portState_writer, he.tl_writer, he.diagLog_writer⟩

/-! ### What every step keeps -/

/-- A property that a reset gives, that the presentations and the codec's answers leave alone, and that every
instruction keeps, is kept by every step. -/
theorem step_keeps {P : State → Prop} (hreset : ∀ s : State, P s.platformReset)
    (hinput : ∀ (s : State) rest, P s → P { s with input := rest })
    (hcodec : ∀ (s : State) r, P s → P (s.emit (.codec r)))
    (hexec : ∀ i s t, P s → exec i s = .next t → P t) {s t : State}
    (hs : P s) (h : step s = .next t) : P t := by
  cases hin : s.input with
  | nil =>
    obtain rfl := Host.Outcome.next.inj ((step_nil hin).symm.trans h)
    exact hs
  | cons p rest =>
    rw [step_cons hin] at h
    cases p with
    | reset =>
      obtain rfl := Host.Outcome.next.inj h
      exact hreset _
    | message port bytes =>
      cases hdec : decode port bytes with
      | ok i => exact hexec i _ t (hinput s rest hs) ((take_decoded hdec _).symm.trans h)
      | error e =>
        rw [undecoded_next ((take_undecoded hdec _).symm.trans h)]
        exact hcodec _ _ (hinput s rest hs)

/-! ### The mask and the two maps (R22 I1 to I3) -/

/-- R22 (I1) to (I3), the invariants of the tables alone. -/
def TablesAgree (s : State) : Prop := MaskMatches s ∧ MapsInverse s ∧ EmptyUnmapped s

/-- The tables agree as long as the mask, the registered boards and the maps stay. -/
theorem TablesAgree.of_same {s t : State} (h : TablesAgree s) (hmask : t.inUseMask = s.inUseMask)
    (hpres : ∀ b, (t.slot b).present = (s.slot b).present) (hnode : ∀ b, (t.slot b).node = (s.slot b).node)
    (hboard : ∀ n, t.boardAt n = s.boardAt n) : TablesAgree t := by
  obtain ⟨h1, h2, h3⟩ := h
  refine ⟨fun b => ?_, fun b n => ?_, fun b hb => ?_⟩
  · rw [hmask, hpres]; exact h1 b
  · rw [hnode, hboard]; exact h2 b n
  · rw [hnode]; exact h3 b ((hpres b).symm.trans hb)

/-- R22 (I2): a board without a node, and a node without a board, may be given to one another. -/
theorem MapsInverse.assign {s : State} {b : BoardId} {n : NodeId} (h : MapsInverse s) (hb : (s.slot b).node = none)
    (hn : s.boardAt n = none) : MapsInverse (s.assign b n) := by
  intro c m
  have hcm := h c m
  rw [State.assign_slot, State.assign_boardAt]
  by_cases hc : c = b
  · -- `b` held no other node than `n`
    subst hc
    grind
  · -- no other board held `n`
    grind

theorem MapsInverse.unassign {s : State} (h : MapsInverse s) (b : BoardId) : MapsInverse (s.unassign b) := by
  intro c m
  have hcm := h c m
  have hbm := h b m
  rw [State.unassign_slot, State.unassign_boardAt]
  by_cases hc : c = b
  · -- `b` was at no other node than the one freed
    subst hc
    grind
  · -- the node freed was no other board's
    grind

/-- R99: the newest assignment wins in both maps. -/
theorem MapsInverse.mapNode {s : State} (h : MapsInverse s) (b : BoardId) (n : NodeId) :
    MapsInverse (s.mapNode b n) := by
  intro c m
  have hcm := h c m
  have hbm := h b m
  rw [State.mapNode_slot h, State.mapNode_boardAt]
  by_cases hc : c = b
  · -- `b` is left at `n` alone
    subst hc
    grind
  · -- another board keeps its node, unless that was `n`
    grind

theorem mapsInverse_clearMap (s : State) : MapsInverse s.clearMap := by
  intro b n
  simp [State.clearMap_slot]

theorem TablesAgree.register {s : State} (h : TablesAgree s) (b : BoardId) (fw : Quadlet) (cap : Bool) :
    TablesAgree (s.register b fw cap) := by
  obtain ⟨hmask, hmaps, hempty⟩ := h
  refine ⟨fun c => ?_, fun c n => ?_, fun c hc => ?_⟩
  · rw [State.register_inUseMask, setBit_getLsbD, State.register_slot, hmask]
    split <;> rfl
  · rw [State.register_node, State.register_boardAt]
    exact hmaps c n
  · rw [State.register_node]
    rw [State.register_slot] at hc
    split at hc
    · cases hc
    · exact hempty c hc

theorem TablesAgree.unassign {s : State} (h : TablesAgree s) (b : BoardId) : TablesAgree (s.unassign b) := by
  obtain ⟨hmask, hmaps, hempty⟩ := h
  refine ⟨fun c => ?_, hmaps.unassign b, fun c hc => ?_⟩
  · rw [State.unassign_inUseMask, State.unassign_present]
    exact hmask c
  · rw [State.unassign_present] at hc
    rw [State.unassign_slot]
    split
    · rfl
    · exact hempty c hc

theorem TablesAgree.unregister {s : State} (h : TablesAgree s) (b : BoardId) : TablesAgree (s.unregister b) := by
  obtain ⟨hmask, hmaps, hempty⟩ := h
  have hnode (c : BoardId) : ((s.unregister b).slot c).node = ((s.unassign b).slot c).node := by
    rw [State.unregister_slot, State.unassign_slot]
    split <;> rfl
  refine ⟨fun c => ?_, fun c n => ?_, fun c hc => ?_⟩
  · rw [State.unregister_inUseMask, clearBit_getLsbD, State.unregister_slot, hmask]
    split <;> rfl
  · rw [hnode]
    exact hmaps.unassign b c n
  · rw [State.unregister_slot] at hc ⊢
    split
    · rfl
    · next hcb => rw [if_neg hcb] at hc; exact hempty c hc

theorem TablesAgree.mapNode {s : State} (h : TablesAgree s) {b : BoardId} (hb : (s.slot b).present = true)
    (n : NodeId) : TablesAgree (s.mapNode b n) := by
  obtain ⟨hmask, hmaps, hempty⟩ := h
  refine ⟨fun c => ?_, hmaps.mapNode b n, fun c hc => ?_⟩
  · rw [State.mapNode_inUseMask, State.mapNode_present]
    exact hmask c
  · rw [State.mapNode_present] at hc
    have hcb : c ≠ b := by rintro rfl; simp [hb] at hc
    simp [State.mapNode_slot hmaps, hcb, hempty c hc]

theorem TablesAgree.clearMap {s : State} (h : TablesAgree s) : TablesAgree s.clearMap := by
  obtain ⟨hmask, -, -⟩ := h
  exact ⟨fun b => (hmask b).trans ((nodesOnly_clearMap s).present b).symm, mapsInverse_clearMap s,
    fun b _ => by rw [State.clearMap_slot]⟩

/-- R102 step 2 for one board that has no node yet; the other boards' nodes stay. -/
theorem TablesAgree.installOne {s : State} (h : TablesAgree s) (m : RevalMap) {b : BoardId}
    (hb : (s.slot b).node = none) :
    TablesAgree (State.installOne m s b) ∧ ∀ c ≠ b, ((State.installOne m s b).slot c).node = (s.slot c).node := by
  obtain ⟨hmask, hmaps, hempty⟩ := h
  unfold State.installOne
  split
  · next n hpres _ =>
    split
    · next hn =>
      refine ⟨⟨fun c => ?_, hmaps.assign hb hn, fun c hc => ?_⟩, fun c hc => by rw [State.assign_slot, if_neg hc]⟩
      · rw [(nodesOnly_assign s b n).present]
        exact hmask c
      · rw [(nodesOnly_assign s b n).present] at hc
        have hcb : c ≠ b := by rintro rfl; simp [hpres] at hc
        rw [State.assign_slot, if_neg hcb]
        exact hempty c hc
    · exact ⟨⟨hmask, hmaps, hempty⟩, fun _ _ => rfl⟩
  · exact ⟨⟨hmask, hmaps, hempty⟩, fun _ _ => rfl⟩

/-- R102 step 2, over the boards still to come, none of which has a node yet. -/
theorem TablesAgree.installFold (m : RevalMap) {l : List BoardId} (hl : l.Nodup) {s : State} (h : TablesAgree s)
    (hfree : ∀ b ∈ l, (s.slot b).node = none) : TablesAgree (l.foldl (State.installOne m) s) := by
  induction l generalizing s with
  | nil => exact h
  | cons b l ih =>
    obtain ⟨hbl, hl⟩ := List.nodup_cons.1 hl
    obtain ⟨hone, hrest⟩ := h.installOne m (hfree b (by simp))
    refine ih hl hone fun c hc => ?_
    rw [hrest c (by rintro rfl; exact hbl hc)]
    exact hfree c (by simp [hc])

theorem TablesAgree.installMap {s : State} (h : TablesAgree s) (m : RevalMap) : TablesAgree (s.installMap m) := by
  unfold State.installMap
  exact h.clearMap.installFold m (List.nodup_finRange 16) fun b _ => by rw [State.clearMap_slot]

/-- Every instruction keeps the tables in agreement. -/
theorem Effect.tablesAgree {c : Config.Functions} {s t : State} {i : Instr} (h : Effect c s i t)
    (hs : TablesAgree s) : TablesAgree t := by
  cases h with
  | added b bid fw cap => exact hs.register bid fw cap
  | removed b bid => exact hs.unregister bid
  | mapped b n bid nid _ _ _ _ hb => exact hs.mapNode hb nid
  | unmapped b bid => exact hs.unassign bid
  | askedAgain m | nodeResumed m | boardResumed m => exact hs.installMap m
  | unicastResumed m => exact (hs.installMap m).of_same (by simp) (by simp) (by simp) (by simp)
  | unicast | delivered | deliveredAll => exact hs.of_same (by simp) (by simp) (by simp) (by simp)
  | _ => exact hs

/-! ### Nothing in flight exactly in `IDLE` (R22 I4) -/

theorem IdleIffNothingInFlight.of_idle {t : State} (hp : t.phase = .idle) (hf : t.inflight = none) :
    IdleIffNothingInFlight t := ⟨fun _ => hf, fun _ => hp⟩

theorem IdleIffNothingInFlight.of_busy {t : State} {f : Inflight} (hp : t.phase ≠ .idle) (hf : t.inflight = some f) :
    IdleIffNothingInFlight t := ⟨fun h => absurd h hp, fun h => nomatch hf.symm.trans h⟩

theorem idleIff_sendUnicast (s : State) (p : Pending) (b : BoardId) (c : Config.Functions) :
    IdleIffNothingInFlight (s.sendUnicast p b c) := by
  cases hn : (s.slot b).node with
  | none => rw [State.sendUnicast_unmapped hn]; exact .of_idle rfl rfl
  | some n => rw [State.sendUnicast_mapped hn]; exact .of_busy (by simp) rfl

theorem Effect.idleIff {c : Config.Functions} {s t : State} {i : Instr} (h : Effect c s i t)
    (hs : IdleIffNothingInFlight s) : IdleIffNothingInFlight t := by
  cases h with
  | busy | answered | inited | closed | timeoutSet | noForwardSet | modeSet | added | codec | ignored | busReset =>
    exact hs
  | removed | mapped | unmapped => simpa [IdleIffNothingInFlight] using hs
  | held | broadcast | bcReadRequested | bcReadAwaited => exact .of_busy (by simp) rfl
  | readSent f _ hf => exact .of_busy (by simp) hf
  | askedAgain m f hp hf => exact .of_busy (by simp [hp]) (by simpa using hf)
  | unicast | unicastResumed => exact idleIff_sendUnicast ..
  | _ => exact .of_idle rfl rfl

/-- R22: every instruction keeps the four invariants. -/
theorem Effect.tableInvariants {c : Config.Functions} {s t : State} {i : Instr} (h : Effect c s i t)
    (hs : TableInvariants s) : TableInvariants t := by
  obtain ⟨hmask, hmaps, hempty, hidle⟩ := hs
  obtain ⟨hmask', hmaps', hempty'⟩ := h.tablesAgree ⟨hmask, hmaps, hempty⟩
  exact ⟨hmask', hmaps', hempty', h.idleIff hidle⟩

theorem tableInvariants_reset : TableInvariants State.reset :=
  ⟨fun b => by rw [State.reset_slot]; simp [State.reset, Slot.empty], fun b n => by simp [Slot.empty],
    fun b _ => by simp [Slot.empty], .of_idle rfl rfl⟩

/-- Settles O47: I1 to I3 by what each table operation keeps, I4 by the sequencer's. -/
theorem stepKeepsTheTableInvariants : Obligations.StepKeepsTheTableInvariants :=
  ⟨tableInvariants_reset, fun _ _ hs h => step_keeps (P := TableInvariants) (fun _ => tableInvariants_reset)
    (fun _ _ hs => hs) (fun _ _ hs => hs) (fun _ _ _ hs h => (exec_effect h).tableInvariants hs) hs h⟩

/-! ### The count covers the registered boards (R98) -/

/-- The registered boards, as a set. -/
def State.boards (s : State) : Finset BoardId := Finset.univ.filter fun b => (s.slot b).present = true

theorem State.mem_boards {s : State} {b : BoardId} : b ∈ s.boards ↔ (s.slot b).present = true := by
  simp [State.boards]

theorem State.registered_eq_card (s : State) : s.registered = s.boards.card := by
  have hcard : s.boards.card = ((List.finRange 16).filter fun b => decide ((s.slot b).present = true)).length := rfl
  simp [hcard, State.registered, List.countP_eq_length_filter]

theorem CountCovers.of_same {s t : State} (h : CountCovers s) (hn : t.numBoards = s.numBoards)
    (hb : ∀ b, (t.slot b).present = (s.slot b).present) : CountCovers t := by
  have hset : t.boards = s.boards := Finset.ext fun b => by rw [State.mem_boards, State.mem_boards, hb]
  rw [CountCovers, State.registered_eq_card, hset, hn, ← State.registered_eq_card]
  exact h

/-- R97: the count goes up by one, and at most one board is new. -/
theorem CountCovers.register {s : State} (h : CountCovers s) (hmax : s.numBoards ≠ BitVec.allOnes 32) (b : BoardId)
    (fw : Quadlet) (cap : Bool) : CountCovers (s.register b fw cap) := by
  have hset : (s.register b fw cap).boards ⊆ insert b s.boards := by
    intro c hc
    rw [State.mem_boards, State.register_slot] at hc
    rw [Finset.mem_insert, State.mem_boards]
    split at hc
    · next hcb => exact .inl hcb
    · exact .inr hc
  have hcard := (Finset.card_le_card hset).trans (Finset.card_insert_le b s.boards)
  rw [show BitVec.allOnes 32 = 0xFFFFFFFF#32 from rfl] at hmax
  have hcount : (s.numBoards + 1#32).toNat = s.numBoards.toNat + 1 := by bv_omega
  rw [CountCovers, State.registered_eq_card] at h ⊢
  rw [State.register_numBoards, hcount]
  omega

/-- R98: the count goes down by one, and with it the board that was registered. -/
theorem CountCovers.unregister {s : State} (h : CountCovers s) {b : BoardId} (hb : (s.slot b).present = true) :
    CountCovers (s.unregister b) := by
  have hset : (s.unregister b).boards = s.boards.erase b := by
    ext c
    rw [Finset.mem_erase, State.mem_boards, State.mem_boards, State.unregister_slot]
    split <;> simp_all
  have hcard := Finset.card_erase_add_one (State.mem_boards.2 hb)
  rw [CountCovers, State.registered_eq_card] at h ⊢
  have hcount : (s.numBoards - 1#32).toNat = s.numBoards.toNat - 1 := by bv_omega
  rw [State.unregister_numBoards, hcount, hset]
  omega

theorem Effect.countCovers {c : Config.Functions} {s t : State} {i : Instr} (h : Effect c s i t)
    (hs : CountCovers s) : CountCovers t := by
  obtain ⟨-, hn, hb⟩ | ⟨b, fw, cap, rfl⟩ | ⟨b, rfl⟩ := h.boards_writer
  · exact hs.of_same hn fun b => (hb b).1
  · cases h with
    | added _ bid _ _ _ _ _ hmax => exact hs.register hmax bid fw cap
    | unicast _ _ _ hu => exact absurd rfl hu
    | _ => exact hs
  · cases h with
    | removed _ bid _ _ _ hb => exact hs.unregister hb
    | unicast _ _ _ hu => exact absurd rfl hu
    | _ => exact hs

/-! ### The command in flight (R48, R56, R101, R109, R110, R126, R152) -/

/-- The invariant of the sequencer. -/
def SequencerFits (s : State) : Prop :=
  BusyOnlyOperational s ∧ s.phase.fits s.inflight = true ∧ s.inflightLegal = true

/-- What the sequencer requires of a command in flight. -/
def Pending.legalIn (s : State) (p : Pending) : Prop :=
  p.lengthOk = true ∧ ∀ b, p.unicastBoard = some b → (s.slot b).present = true

theorem State.inflightLegal_iff {s : State} {f : Inflight} (hf : s.inflight = some f) :
    s.inflightLegal = true ↔ f.cmd.legalIn s := by
  cases hb : f.cmd.unicastBoard <;> simp [State.inflightLegal, hf, Pending.legalIn, hb]

/-- Nothing is required of a machine at rest. -/
theorem SequencerFits.of_idle {t : State} (hp : t.phase = .idle) (hf : t.inflight = none) : SequencerFits t :=
  ⟨fun h => absurd hp h, by rw [hp, hf]; rfl, by rw [State.inflightLegal, hf]⟩

/-- What is required of a machine with a command in flight. -/
theorem SequencerFits.of_busy {t : State} {f : Inflight} (ho : t.portState = .operational) (hf : t.inflight = some f)
    (hfits : t.phase.fits (some f) = true) (hlegal : f.cmd.legalIn t) : SequencerFits t :=
  ⟨fun _ => ho, hf ▸ hfits, (State.inflightLegal_iff hf).2 hlegal⟩

/-- A machine in `IDLE` is at rest. -/
theorem SequencerFits.inflight_of_idle {s : State} (h : SequencerFits s) (hp : s.phase = .idle) : s.inflight = none := by
  obtain ⟨-, hfits, -⟩ := h
  rw [hp] at hfits
  cases hf : s.inflight with
  | none => rfl
  | some f => rw [hf] at hfits; cases hfits

theorem Inflight.isSent_sent (p : Pending) (n : NodeNum) (l : Label) : (Inflight.sent p n l).isSent = true := by
  simp [Inflight.isSent, Inflight.sent]

theorem Pending.sends_of_unicastBoard {p : Pending} {b : BoardId} (h : p.unicastBoard = some b) : p.sends = true := by
  cases p with
  | rq | wq | rb | wb => rfl
  | bwq | bwb | brr | wbr | nfb | bfn => cases h

theorem SequencerFits.sendRequest {s : State} {p : Pending} (ho : s.portState = .operational) (hsends : p.sends = true)
    (hlegal : p.legalIn s) (n : NodeNum) (c : Config.Functions) : SequencerFits (s.sendRequest p n c) :=
  .of_busy ho rfl (Bool.and_eq_true_iff.2 ⟨hsends, Inflight.isSent_sent ..⟩) hlegal

theorem SequencerFits.sendUnicast {s : State} {p : Pending} {b : BoardId} (ho : s.portState = .operational)
    (hb : p.unicastBoard = some b) (hlegal : p.legalIn s) (c : Config.Functions) :
    SequencerFits (s.sendUnicast p b c) := by
  cases hn : (s.slot b).node with
  | none => rw [State.sendUnicast_unmapped hn]; exact .of_idle rfl rfl
  | some n =>
    rw [State.sendUnicast_mapped hn]
    exact .sendRequest ho (Pending.sends_of_unicastBoard hb) hlegal _ c

/-- A broadcast write is sent, and has no board. -/
theorem Pending.broadcastWrite {p : Pending} (h : p.op = .bwq ∨ p.op = .bwb) :
    p.sends = true ∧ p.unicastBoard = none := by
  cases p with
  | bwq | bwb => exact ⟨rfl, rfl⟩
  | rq | wq | rb | wb | brr | wbr | nfb | bfn => simp [Pending.op] at h

/-- What the invariant says of the command in flight. -/
theorem SequencerFits.inFlight {s : State} {f : Inflight} {p : Phase} (h : SequencerFits s) (hp : s.phase = p)
    (hbusy : p ≠ .idle) (hf : s.inflight = some f) :
    s.portState = .operational ∧ p.fits (some f) = true ∧ f.cmd.legalIn s := by
  obtain ⟨ho, hfits, hlegal⟩ := h
  rw [hp, hf] at hfits
  exact ⟨ho (hp ▸ hbusy), hfits, (State.inflightLegal_iff hf).1 hlegal⟩

/-- Every instruction keeps the invariant of the sequencer. -/
theorem Effect.sequencerFits {c : Config.Functions} {s t : State} {i : Instr} (h : Effect c s i t)
    (hs : SequencerFits s) : SequencerFits t := by
  cases h with
  -- Nothing of the sequencer changes.
  | busy | answered | timeoutSet | noForwardSet | modeSet | codec | ignored | busReset => exact hs
  | inited hp | closed hp | added _ _ _ _ hp | removed _ _ hp | mapped _ _ _ _ hp | unmapped _ _ hp =>
    exact .of_idle (by simp [hp]) (by simp [hs.inflight_of_idle hp])
  -- A command comes in flight.
  | held p _ _ _ _ ho hl hlen hb => exact .of_busy ho rfl (by simp [Phase.fits, hl, Inflight.held]) ⟨hlen, hb⟩
  | unicast p b _ _ _ ho hub hlen hpres =>
    exact .sendUnicast ho hub ⟨hlen, fun d hd => Option.some.inj (hub.symm.trans hd) ▸ hpres⟩ c
  | broadcast p _ _ _ _ ho hop hlen =>
    obtain ⟨hsends, hnone⟩ := Pending.broadcastWrite hop
    exact .sendRequest ho hsends ⟨hlen, by simp [hnone]⟩ _ c
  | bcReadRequested seq _ ho => exact .sendRequest ho rfl ⟨rfl, fun _ hd => by cases hd⟩ _ c
  | bcReadAwaited _ ho => exact .of_busy ho rfl rfl ⟨rfl, fun _ hd => by cases hd⟩
  -- The command in flight goes on.
  | readSent f hp hf hr =>
    obtain ⟨ho, hfits, hlegal⟩ := hs.inFlight hp (by decide) hf
    have hsent : f.isSent = true := (Bool.and_eq_true_iff.1 hfits).2
    exact .of_busy ho hf (by simp [Phase.fits, hr, hsent]) hlegal
  | askedAgain m f hp hf =>
    obtain ⟨ho, hfits, hlen, hb⟩ := hs.inFlight hp (by decide) hf
    exact .of_busy (by simp [ho]) (by simp [hf]) (by simpa [hp] using hfits)
      ⟨hlen, fun b h => (State.installMap_present s m b).trans (hb b h)⟩
  | unicastResumed m f b hp hf _ hub =>
    obtain ⟨ho, -, hlen, hb⟩ := hs.inFlight hp (by decide) hf
    exact .sendUnicast (by simp [ho]) hub ⟨hlen, fun b h => by simp [hb b h]⟩ c
  -- The command in flight ends.
  | _ => exact .of_idle rfl rfl

/-! ### The invariant of the machine -/

theorem inv_iff {s : State} : Inv s ↔ TableInvariants s ∧ CountCovers s ∧ SequencerFits s := Iff.rfl

theorem inv_reset : Inv State.reset :=
  inv_iff.2 ⟨tableInvariants_reset, by simp [State.registered, Slot.empty], .of_idle rfl rfl⟩

/-- Settles O46. -/
theorem resetMeetsTheInvariant : Obligations.ResetMeetsTheInvariant := ⟨tableInvariants_reset, inv_reset⟩

theorem Effect.inv {c : Config.Functions} {s t : State} {i : Instr} (h : Effect c s i t) (hs : Inv s) : Inv t := by
  obtain ⟨htables, hcount, hseq⟩ := inv_iff.1 hs
  exact inv_iff.2 ⟨h.tableInvariants htables, h.countCovers hcount, h.sequencerFits hseq⟩

/-- Settles O48: the tables, the count and the sequencer are each kept by every effect of an instruction. -/
theorem stepKeepsTheInvariant : Obligations.StepKeepsTheInvariant :=
  fun _ _ hs h => step_keeps (P := Inv) (fun _ => inv_reset) (fun _ _ hs => hs) (fun _ _ hs => hs)
    (fun _ _ _ hs h => (exec_effect h).inv hs) hs h

end Sys2Proof.Machine

/-! ## The unicast and broadcast commands: their checks, and a whole block read (O59, O30, O34) -/

namespace Sys2Proof.Machine

/-! ### The checks of a command that touches the transport, in order (R109, R110) -/

/-- R142: the block length check, of a command that carries a length. -/
def whenLengths (s : State) (len : Option Nat) (k : StepOutcome) : StepOutcome :=
  match len with
  | some l => whenLength s l k
  | none => k

theorem whenLengths_of {len : Option Nat} (h : ∀ l, len = some l → 0 < l ∧ l % 4 = 0 ∧ l ≤ 65532) (s : State)
    (k : StepOutcome) : whenLengths s len k = k := by
  cases len with
  | none => rfl
  | some l => exact whenLength_of (h l rfl) s k

theorem whenAllowed_of {a : Bool} (h : a = true) (s : State) (k : StepOutcome) : whenAllowed s a k = k := if_pos h

theorem whenAllowed_not {a : Bool} (h : a ≠ true) (s : State) (k : StepOutcome) :
    whenAllowed s a k = answer s .protocolUnsupported := if_neg h

theorem Mode.allowsBcWrite_iff (m : Mode) : m.allowsBcWrite = true ↔ m ∈ [Mode.seqRBcW, .bcQrw] := by
  cases m <;> decide

theorem Mode.allowsBcRead_iff (m : Mode) : m.allowsBcRead = true ↔ m ∈ [Mode.bcQrw] := by
  cases m <;> decide

theorem unicastPrologue_outOfRange {s : State} {b : Byte} (hidle : s.phase = .idle) (hb : 16 ≤ b.toNat)
    (k : BoardId → StepOutcome) : unicastPrologue s b k = answer s .outOfRange := by
  rw [unicastPrologue, whenIdle_idle hidle, withBoard_outOfRange hb]

theorem unicastPrologue_of {s : State} {b : Byte} {bid : BoardId} (hidle : s.phase = .idle) (hb : b.toNat = bid.val)
    (k : BoardId → StepOutcome) : unicastPrologue s b k = whenRegistered s bid (k bid) := by
  rw [unicastPrologue, whenIdle_idle hidle, withBoard_of hb]

/-- The checks that unicast and broadcast commands share: the length first, then the port state. -/
theorem lengthThenPort_checks {s : State} {i : Instr} {len : Option Nat} {k : StepOutcome}
    (h : exec i s = whenLengths s len (whenOperational s k)) :
    (∀ l, len = some l → (l = 0 ∨ l % 4 ≠ 0 ∨ 65532 < l) → Answers i s .invalidLength) ∧
    ((∀ l, len = some l → 0 < l ∧ l % 4 = 0 ∧ l ≤ 65532) →
      (s.portState = .faulted → Answers i s .transportFailure) ∧
      (s.portState = .constructed ∨ s.portState = .closed → Answers i s .notOperational)) := by
  refine ⟨fun l hl hbad => ?_, fun hlen => ⟨fun hf => ?_, fun hn => ?_⟩⟩
  · subst hl
    exact h.trans (whenLength_illegal hbad s _)
  · exact h.trans ((whenLengths_of hlen s _).trans (whenOperational_faulted hf k))
  · exact h.trans ((whenLengths_of hlen s _).trans (whenOperational_not hn k))

/-- R109 P0 to P4: a unicast command is its checks, in this order, before all it does. -/
theorem exec_unicast_checks {i : Instr} {b : Byte} {len : Option Nat} (hi : i.unicast = some (b, len)) (s : State) :
    ∃ k : BoardId → StepOutcome,
      exec i s = unicastPrologue s b fun bid => whenLengths s len (whenOperational s (k bid)) := by
  cases i with
  | readQuadlet | writeQuadlet | readBlock | writeBlock =>
    obtain ⟨rfl, rfl⟩ := Prod.mk.inj (Option.some.inj hi)
    exact ⟨_, rfl⟩
  | _ => cases hi

/-- Settles O30: each check in turn, the ones before it passed. -/
theorem unicastChecksInOrder : Obligations.UnicastChecksInOrder := by
  intro s i b len hi hidle
  obtain ⟨k, hk⟩ := exec_unicast_checks hi s
  refine ⟨fun hb => ?_, fun bid hb => ?_⟩
  · exact hk.trans (unicastPrologue_outOfRange hidle hb _)
  · rw [unicastPrologue_of hidle hb] at hk
    refine ⟨fun hempty => ?_, fun hpres => ?_⟩
    · exact hk.trans (whenRegistered_empty hempty _)
    · exact lengthThenPort_checks (hk.trans (whenRegistered_of hpres _))

/-- R110 B0 to B3: a broadcast command is its checks, in this order, before all it does. -/
theorem exec_broadcast_checks {i : Instr} {modes : List Mode} {len : Option Nat}
    (hi : i.broadcast = some (modes, len)) (s : State) :
    ∃ (allowed : Bool) (k : StepOutcome), (allowed = true ↔ s.mode ∈ modes) ∧
      exec i s = whenIdle s (whenAllowed s allowed (whenLengths s len (whenOperational s k))) := by
  cases i with
  | writeBcQuadlet | writeBcBlock =>
    obtain ⟨rfl, rfl⟩ := Prod.mk.inj (Option.some.inj hi)
    exact ⟨_, _, s.mode.allowsBcWrite_iff, rfl⟩
  | writeBcReadRequest | waitBcRead =>
    obtain ⟨rfl, rfl⟩ := Prod.mk.inj (Option.some.inj hi)
    exact ⟨_, _, s.mode.allowsBcRead_iff, rfl⟩
  | _ => cases hi

/-- Settles O34: each check in turn, the ones before it passed. -/
theorem broadcastChecksInOrder : Obligations.BroadcastChecksInOrder := by
  intro s i modes len hi hidle
  obtain ⟨allowed, k, hallowed, hk⟩ := exec_broadcast_checks hi s
  rw [whenIdle_idle hidle] at hk
  refine ⟨fun hmode => ?_, fun hmode => ?_⟩
  · exact hk.trans (whenAllowed_not (mt hallowed.1 hmode) s _)
  · exact lengthThenPort_checks (hk.trans (whenAllowed_of (hallowed.2 hmode) s _))

/-! ### A block response is valid for the request it answers (R88, R91) -/

section
variable (dst : BitVec 16) (n : NodeNum) (t : Label) (data : List Byte) (rc : BitVec 4) (c : Config.Functions)

/-- R88: the header of a block response, its CRC included. -/
def brespHeader : List Byte :=
  withCrc (respHead 0x7#4 (ownRespHdr dst n t rc) ++ be32 (mkBlockQ3 (BitVec.ofNat 16 data.length) 0#16)) c

@[simp] theorem brespHeader_length : (brespHeader dst n t data rc c).length = 20 := by
  simp [brespHeader]

/-- R88: a block response is two regions, each with its own CRC. -/
theorem encBresp_eq : encBresp dst n t data rc c = brespHeader dst n t data rc c ++ withCrc data c :=
  List.append_assoc ..

theorem encBresp_length : (encBresp dst n t data rc c).length = 20 + data.length + 4 := by
  simp [encBresp_eq, Nat.add_assoc]

theorem encBresp_slice_header : slice (encBresp dst n t data rc c) 0 20 = brespHeader dst n t data rc c := by
  simp [encBresp_eq, slice]

theorem encBresp_slice_data :
    slice (encBresp dst n t data rc c) 20 (20 + data.length + 4) = withCrc data c := by
  rw [encBresp_eq, Nat.add_assoc, slice_after (brespHeader_length ..)]
  simp

theorem encBresp_slice_payload : slice (encBresp dst n t data rc c) 20 (20 + data.length) = data := by
  rw [encBresp_eq, slice_after (brespHeader_length ..)]
  simp [withCrc]

theorem encBresp_quadlet0 : quadAt (encBresp dst n t data rc c) 0 = mkQ0 dst t 0#2 0x7#4 0#4 := by
  simp [encBresp, withCrc, respHead, ownRespHdr]

theorem encBresp_quadlet1 : quadAt (encBresp dst n t data rc c) 1 = mkRespQ1 (destId n) rc 0#12 := by
  simp [encBresp, withCrc, respHead, ownRespHdr]

theorem encBresp_quadlet3 :
    quadAt (encBresp dst n t data rc c) 3 = mkBlockQ3 (BitVec.ofNat 16 data.length) 0#16 := by
  simp [encBresp, withCrc, respHead, ownRespHdr]

/-- R91: the response a board builds passes every check against the node, label and length asked for. -/
theorem validateResponse_encBresp (h : data.length < 65536) :
    validateResponse (encBresp dst n t data rc c) n 0x7#4 t data.length c = .valid := by
  have hhead : checkCrc (brespHeader dst n t data rc c) c = true := checkCrc_withCrc ..
  simp [validateResponse, encBresp_length, encBresp_quadlet0, encBresp_quadlet1, encBresp_quadlet3,
    encBresp_slice_header, encBresp_slice_data, hhead, Nat.mod_eq_of_lt h]

end

/-! ### A whole block read (R109, R120, R128, R130) -/

/-- R109 P5 to P8: a unicast command to a mapped board, the map fresh, sends its frame. -/
theorem exec_unicast_mapped {s : State} {i : Instr} {b : Byte} {bid : BoardId} {n : NodeId} {p : Pending}
    {len : Option Nat} (hi : i.unicast = some (b, len)) (hb : b.toNat = bid.val) (hp : i.pending bid = some p)
    (hidle : s.phase = .idle) (hpres : (s.slot bid).present = true)
    (hlen : ∀ l, len = some l → 0 < l ∧ l % 4 = 0 ∧ l ≤ 65532) (ho : s.portState = .operational)
    (hfresh : s.staleMap = false) (hn : (s.slot bid).node = some n) :
    exec i s = .next (s.sendRequest p (nodeNum n) functions) := by
  rw [exec_unicast hi hb hp hidle hpres hlen ho, State.lookup_fresh (by simp [hfresh]), State.sendUnicast_mapped hn]

theorem inPhase_of {s : State} {p : Phase} {f : Inflight} (hp : s.phase = p) (hf : s.inflight = some f)
    (k : Inflight → StepOutcome) : inPhase s p k = k f := by
  simp [inPhase, hp, hf]

/-- R128: after a successful `send` a read awaits its response. -/
theorem exec_sendDone_read {s : State} {f : Inflight} (hp : s.phase = .waitSend) (hf : s.inflight = some f)
    (hop : f.cmd.op = .rq ∨ f.cmd.op = .rb) : exec (.sendDone .ok) s = .next s.awaitReceive := by
  have hsent : s.sent f = .next s.awaitReceive := by
    unfold State.sent
    cases hc : f.cmd with
    | rq | rb => rfl
    | _ => simp [hc, Pending.op] at hop
  exact (inPhase_of hp hf _).trans hsent

/-- R130 steps 3 to 6: a valid response of the right generation is delivered. -/
theorem judgeUnicast_delivers {s : State} {n : NodeNum} {code : BitVec 4} {l : Label} {len : Nat} {fr tr : List Byte}
    {c : Config.Functions} (hv : validateResponse fr n code l len c = .valid) (htr : tr.length = 8)
    (hg : byteAt tr 1 = s.busGen) (f : Inflight) (b : BoardId) (deliver : List Byte → Result) :
    s.judgeUnicast f b n code l len deliver (fr ++ tr) c = ((s.acceptTrailer tr).capUpdate b).finish (deliver fr) := by
  simp [State.judgeUnicast, ethSplit_append htr, hv, Verdict.reason, hg]

/-- R129, R130: a valid block response of the right generation ends the block read with its payload. -/
theorem exec_recvDone_blockRead {s : State} {b : BoardId} {a : Addr} {len : BitVec 32} {n : NodeNum} {l : Label}
    {fr tr : List Byte} (hp : s.phase = .waitRecv) (hf : s.inflight = some (Inflight.sent (.rb b a len) n l))
    (hv : validateResponse fr n 0x7#4 l len.toNat = .valid) (htr : tr.length = 8) (hg : byteAt tr 1 = s.busGen) :
    exec (.recvDone (.bytes (fr ++ tr))) s =
      .next (((s.acceptTrailer tr).capUpdate b).finish (.okBytes (slice fr 20 (20 + len.toNat)))) :=
  (inPhase_of hp hf _).trans (congrArg Host.Outcome.next (judgeUnicast_delivers hv htr hg ..))

/-- R120: the frame of a block read asks for the length of its operand, in the frame's 16 bits. -/
theorem blockRead_frame (b : BoardId) (a : Addr) (len : Nat) (n : NodeNum) (l : Label) (mask : BitVec 16)
    (c : Config.Functions) :
    (Pending.rb b a (BitVec.ofNat 32 len)).frame n l mask c = encBread n a l (BitVec.ofNat 16 len) c := by
  rw [Pending.frame, BitVec.setWidth_ofNat_of_le (by decide)]

/-- Settles O59: the request goes out, the response is awaited, and what the board answered passes every check. -/
theorem blockReadCycleDeliversThePayload : Obligations.BlockReadCycleDeliversThePayload := by
  intro s bid n a dst rc data t0 t2 t3 t4 t5 t6 t7 hidle ho hfresh hpres hn hpos hmod hmax
  have hlen : (BitVec.ofNat 32 data.length).toNat = data.length := Nat.mod_eq_of_lt (by omega)
  have hlegal (l : Nat) (h : some (BitVec.ofNat 32 data.length).toNat = some l) :
      0 < l ∧ l % 4 = 0 ∧ l ≤ 65532 := by
    rw [hlen] at h
    cases h
    exact ⟨hpos, hmod, hmax⟩
  have hvalid := validateResponse_encBresp dst (nodeNum n) s.tl data rc functions (by omega)
  refine ⟨_, _, _, exec_unicast_mapped rfl (toNat_ofBoard bid) rfl hidle hpres hlegal ho hfresh hn,
    exec_sendDone_read rfl rfl (.inr rfl),
    exec_recvDone_blockRead rfl rfl (hlen.symm ▸ hvalid) rfl rfl, ?_, rfl, ?_, ?_, ?_⟩
  · simp [hlen, encBresp_slice_payload, blockRead_frame, ethWrap, makeCtrl, nodeNum]
  · simp
  · simp [ho]
  · simp

end Sys2Proof.Machine

/-! ## Encoding and decoding (O1, O2, O3) -/

namespace Sys2Proof.Machine

/-! ### The operands, read back from their bytes (R76) -/

@[simp] theorem takeQuadlet_be32 (code : Byte) (v : Quadlet) (k : Quadlet → Instr) :
    takeQuadlet code (be32 v) k = .ok (k v) := by
  simp [takeQuadlet, be32]

@[simp] theorem takeTwo_be16 (code : Byte) (v : BitVec 16) (k : BitVec 16 → Instr) :
    takeTwo code (be16 v) (fun x y => k (fromBe16 x y)) = .ok (k v) := by
  simp [takeTwo, be16]

@[simp] theorem takeDuration_be64 (code : Byte) (d : Duration) :
    takeDuration code (be64 d.bits) = .ok (.setTimeout d) := by
  obtain ⟨d7, d6, d5, d4, d3, d2, d1, d0, hbytes, hval⟩ := be64_bytes d.bits
  rw [hbytes, takeDuration, hval]

@[simp] theorem takeAddr_be48 (code : Byte) (a : Addr) (rest : List Byte)
    (k : Addr → List Byte → Except DecodeError Instr) : takeAddr code (be48 a ++ rest) k = k a rest := by
  obtain ⟨a5, a4, a3, a2, a1, a0, hbytes, hval⟩ := be48_bytes a
  rw [hbytes, ← hval]
  rfl

@[simp] theorem takeBoardAddr_be48 (code b : Byte) (a : Addr) (rest : List Byte)
    (k : Byte → Addr → List Byte → Except DecodeError Instr) :
    takeBoardAddr code (b :: (be48 a ++ rest)) k = k b a rest := by
  obtain ⟨a5, a4, a3, a2, a1, a0, hbytes, hval⟩ := be48_bytes a
  rw [hbytes, ← hval]
  rfl

@[simp] theorem takeBoardAddr_be48_alone (code b : Byte) (a : Addr)
    (k : Byte → Addr → List Byte → Except DecodeError Instr) : takeBoardAddr code (b :: be48 a) k = k b a [] := by
  rw [← List.append_nil (be48 a), takeBoardAddr_be48]

/-- R76: the 2-bit mode is the low bits of its operand byte. -/
@[simp] theorem extract_low_setWidth (m : BitVec 2) : (m.setWidth 8).extractLsb' 0 2 = m := by
  rw [← BitVec.setWidth_eq_extractLsb' (by decide), BitVec.setWidth_setWidth_of_le m (by decide), BitVec.setWidth_eq]

/-- R76: a `data` operand is read back when its length fits the 16-bit count. -/
theorem takeData_dataBytes {data : List Byte} (h : wfData data = true) (code : Byte) (k : List Byte → Instr) :
    takeData code (dataBytes data) k = .ok (k data) := by
  have hcount : data.length % 65536 = data.length := Nat.mod_eq_of_lt (by simpa [wfData] using h)
  simp [takeData, dataBytes, be16, hcount]

@[simp] theorem takeBoardHandle_bytes (code b : Byte) (fw : Quadlet) (cap : Bool) :
    takeBoardHandle code (b :: (be32 fw ++ [bitByte cap])) = .ok (.addBoard b fw cap) := by
  simp [takeBoardHandle, be32]

/-! ### The operands of the events, in the model's byte form (R77, log entry 5) -/

@[simp] theorem readPairs_pairBytes (l : List (Option Byte)) : readPairs (l.flatMap pairBytes) = l := by
  induction l with
  | nil => rfl
  | cons x xs ih =>
    cases x with
    | none => simp [pairBytes, readPairs, lowBit, ih]
    | some n => simp [pairBytes, readPairs, lowBit, ih]

@[simp] theorem takeMap_pairBytes (code : Byte) (m : RevalMap) :
    takeMap code (m.toList.flatMap pairBytes) = .ok (.revalDone m) := by
  have hlen : (m.toList.flatMap pairBytes).length = 32 := by
    rw [Laws.EncodedSize.pairs_length, Vector.length_toList]
  rw [takeMap, if_pos hlen, dif_pos (by rw [readPairs_pairBytes, Vector.length_toList])]
  simp only [readPairs_pairBytes]
  rfl

/-! ### The frame decoder, kind by kind (R58, R75, R89) -/

section

variable {f : List Byte}

theorem not_lt_four_of_length (hlen : 20 ≤ f.length) : ¬ f.length < 4 := by omega

theorem decodeFrame_qread (hlen : 16 ≤ f.length) (ht : q0Tcode (quadAt f 0) = 0x4#4) :
    decodeFrame f = .ok (.qread (readReqHdr f) (quadAt f 3)) := by
  simp [decodeFrame, ht, hlen, show ¬ f.length < 4 by omega]

theorem decodeFrame_qwrite (hlen : 20 ≤ f.length) (ht : q0Tcode (quadAt f 0) = 0x0#4) :
    decodeFrame f = .ok (.qwrite (readReqHdr f) (quadAt f 3) (quadAt f 4)) := by
  simp [decodeFrame, ht, hlen, not_lt_four_of_length hlen]

theorem decodeFrame_bwrite (hlen : 20 ≤ f.length) (ht : q0Tcode (quadAt f 0) = 0x1#4) : decodeFrame f =
    .ok (.bwrite (readReqHdr f) (q3Length (quadAt f 3)) (q3Ext (quadAt f 3)) (quadAt f 4) (f.drop 20)) := by
  simp [decodeFrame, ht, hlen, not_lt_four_of_length hlen]

theorem decodeFrame_bread (hlen : 20 ≤ f.length) (ht : q0Tcode (quadAt f 0) = 0x5#4) : decodeFrame f =
    .ok (.bread (readReqHdr f) (q3Length (quadAt f 3)) (q3Ext (quadAt f 3)) (quadAt f 4)) := by
  simp [decodeFrame, ht, hlen, not_lt_four_of_length hlen]

theorem decodeFrame_qresp (hlen : 20 ≤ f.length) (ht : q0Tcode (quadAt f 0) = 0x6#4) :
    decodeFrame f = .ok (.qresp (readRespHdr f) (quadAt f 3) (quadAt f 4)) := by
  simp [decodeFrame, ht, hlen, not_lt_four_of_length hlen]

theorem decodeFrame_bresp (hlen : 20 ≤ f.length) (ht : q0Tcode (quadAt f 0) = 0x7#4) : decodeFrame f =
    .ok (.bresp (readRespHdr f) (q3Length (quadAt f 3)) (q3Ext (quadAt f 3)) (quadAt f 4) (f.drop 20)) := by
  simp [decodeFrame, ht, hlen, not_lt_four_of_length hlen]

end

/-! ### The fields of a frame, read back from its bytes (R59 to R62) -/

section

variable (tcode : BitVec 4) (h : ReqHdr) (r : RespHdr) (rest : List Byte)

@[simp] theorem readReqHdr_reqHead : readReqHdr (reqHead tcode h ++ rest) = h := by
  simp [readReqHdr, reqHead]

@[simp] theorem readRespHdr_respHead : readRespHdr (respHead tcode r ++ rest) = r := by
  simp [readRespHdr, respHead]

@[simp] theorem q0Tcode_reqHead : q0Tcode (quadAt (reqHead tcode h ++ rest) 0) = tcode := by
  simp [reqHead]

@[simp] theorem q0Tcode_respHead : q0Tcode (quadAt (respHead tcode r ++ rest) 0) = tcode := by
  simp [respHead]

@[simp] theorem quadAt_reqHead_3 : quadAt (reqHead tcode h ++ rest) 3 = quadAt rest 0 := by
  simp [reqHead]

@[simp] theorem quadAt_respHead_3 : quadAt (respHead tcode r ++ rest) 3 = quadAt rest 0 := by
  simp [respHead]

@[simp] theorem quadAt_reqHead_4 : quadAt (reqHead tcode h ++ rest) 4 = quadAt rest 1 := by
  simp [reqHead]

@[simp] theorem quadAt_respHead_4 : quadAt (respHead tcode r ++ rest) 4 = quadAt rest 1 := by
  simp [respHead]

end

/-! ### Decoding what was encoded (R59 to R68, R76, R77) -/

section

variable (h : ReqHdr) (r : RespHdr) (len ext : BitVec 16) (data crc : Quadlet) (tail : List Byte)

theorem decodeFrame_encode_qwrite : decodeFrame (encode (.qwrite h data crc)) = .ok (.qwrite h data crc) := by
  rw [decodeFrame_qwrite] <;> simp [encode]

theorem decodeFrame_encode_qread : decodeFrame (encode (.qread h crc)) = .ok (.qread h crc) := by
  rw [decodeFrame_qread] <;> simp [encode]

theorem decodeFrame_encode_bread : decodeFrame (encode (.bread h len ext crc)) = .ok (.bread h len ext crc) := by
  rw [decodeFrame_bread] <;> simp [encode]

theorem decodeFrame_encode_qresp : decodeFrame (encode (.qresp r data crc)) = .ok (.qresp r data crc) := by
  rw [decodeFrame_qresp] <;> simp [encode]

/-- R66: the tail is what follows the 20 header bytes, whatever its length. -/
theorem decodeFrame_encode_bwrite :
    decodeFrame (encode (.bwrite h len ext crc tail)) = .ok (.bwrite h len ext crc tail) := by
  have htail : (encode (.bwrite h len ext crc tail)).drop 20 = tail := List.drop_left' rfl
  have hlen : 20 ≤ (encode (.bwrite h len ext crc tail)).length := by simp [encode]; omega
  rw [decodeFrame_bwrite hlen (by simp [encode]), htail]
  simp [encode]

/-- R68: the tail is what follows the 20 header bytes, whatever its length. -/
theorem decodeFrame_encode_bresp :
    decodeFrame (encode (.bresp r len ext crc tail)) = .ok (.bresp r len ext crc tail) := by
  have htail : (encode (.bresp r len ext crc tail)).drop 20 = tail := List.drop_left' rfl
  have hlen : 20 ≤ (encode (.bresp r len ext crc tail)).length := by simp [encode]; omega
  rw [decodeFrame_bresp hlen (by simp [encode]), htail]
  simp [encode]

end

/-- Settles O1, by the constructors: a frame by its fields, a command or an event by its code byte and its operands.
Only a `data` operand needs well-formedness, for its count. -/
theorem decodeOfEncodeIsTheInstruction : Obligations.DecodeOfEncodeIsTheInstruction := by
  intro i hwf
  cases i with
  | qwrite h data crc => exact decodeFrame_encode_qwrite h data crc
  | bwrite h len ext crc tail => exact decodeFrame_encode_bwrite h len ext crc tail
  | qread h crc => exact decodeFrame_encode_qread h crc
  | bread h len ext crc => exact decodeFrame_encode_bread h len ext crc
  | qresp r data crc => exact decodeFrame_encode_qresp r data crc
  | bresp r len ext crc tail => exact decodeFrame_encode_bresp r len ext crc tail
  | shutdown | getStatus | getTiming | bcCapableAll | waitBcRead => rfl
  | removeBoard | mapNode | unmapNode | boardExists | fwVersion | nodeForBoard | boardForNode => rfl
  | init | setNoForward | setProtocol => simp [Instr.port, encode, decode, decodeCommand, takeByte]
  | readQuadlet => simp [Instr.port, encode, decode, decodeCommand, takeNone]
  | setTimeout | addBoard | writeQuadlet | readBlock | writeBcQuadlet | writeBcReadRequest =>
    simp [Instr.port, encode, decode, decodeCommand]
  | writeBlock | writeBcBlock => simp [Instr.port, encode, decode, decodeCommand, takeData_dataBytes hwf]
  | sendDone r => cases r <;> rfl
  | recvDone r => cases r <;> rfl
  | revalDone | busReset => simp [Instr.port, encode, decode, decodeEvent]

/-- Settles O2, by running the decoder on each message. -/
theorem specBytesDecode : Obligations.SpecBytesDecode := by
  refine ⟨?_, ?_, ?_, ?_, ?_, ?_, ?_, ?_, ?_⟩ <;> decide

/-! ### What spells no instruction (R75, R89, U15) -/

/-- R75: a code byte that is none of the rows of R76. -/
theorem decodeCommand_unknown {code : Byte} (ops : List Byte)
    (h : code.toNat ∉ [0x01, 0x02, 0x03, 0x04, 0x05, 0x06, 0x07, 0x10, 0x11, 0x12, 0x13, 0x18, 0x19, 0x1A, 0x1B, 0x1C,
      0x20, 0x21, 0x22, 0x23, 0x28, 0x29, 0x2A, 0x2B]) : decodeCommand code ops = .error (.unknownCommand code) := by
  unfold decodeCommand
  split
  case h_25 => rfl
  all_goals simp [*] at h

/-- R75: a code byte that is none of the rows of R77. -/
theorem decodeEvent_unknown {code : Byte} (ops : List Byte) (h : code.toNat ∉ [0x80, 0x81, 0x82, 0x83]) :
    decodeEvent code ops = .error (.unknownEvent code) := by
  unfold decodeEvent
  split
  case h_5 => rfl
  all_goals simp [*] at h

/-- R58, R75: a transaction code that is none of the six. -/
theorem ofTcode_unknown {t : BitVec 4} (h : t.toNat ∉ [0x0, 0x1, 0x4, 0x5, 0x6, 0x7]) :
    FrameKind.ofTcode t = .unknown t := by
  unfold FrameKind.ofTcode
  split
  case h_7 => rfl
  all_goals simp [*] at h

section

variable {f : List Byte}

theorem header_fits_of_length (h : 20 ≤ f.length) :
    ¬ f.length < if q0Tcode (quadAt f 0) = 4#4 then 16 else 20 := by
  split <;> omega

/-- R89: a QREAD has a header of 16 bytes, every other frame one of 20. -/
theorem header_short_of_length (h : f.length < 16 ∨ (f.length < 20 ∧ q0Tcode (quadAt f 0) ≠ 0x4)) :
    f.length < if q0Tcode (quadAt f 0) = 4#4 then 16 else 20 := by
  split
  · next ht => exact h.resolve_right fun hother => hother.2 ht
  · omega

theorem decodeFrame_unknown (hlen : 20 ≤ f.length)
    (h : (q0Tcode (quadAt f 0)).toNat ∉ [0x0, 0x1, 0x4, 0x5, 0x6, 0x7]) :
    decodeFrame f = .error (.unknownTcode (q0Tcode (quadAt f 0))) := by
  simp only [decodeFrame, if_neg (not_lt_four_of_length hlen), if_neg (header_fits_of_length hlen)]
  split
  case h_7 => rfl
  all_goals simp [*] at h

theorem decodeHeader_kind (hlen : 20 ≤ f.length) :
    (decodeHeader f).map HeaderRecord.kind = some (FrameKind.ofTcode (q0Tcode (quadAt f 0))) := by
  simp only [decodeHeader, if_neg (not_lt_four_of_length hlen), if_neg (header_fits_of_length hlen), Option.map_some]

theorem decodeFrame_tooShort (h : f.length < if q0Tcode (quadAt f 0) = 4#4 then 16 else 20) :
    decodeFrame f = .error .frameTooShort := by
  simp only [decodeFrame, if_pos h, ite_self]

theorem decodeHeader_tooShort (h : f.length < if q0Tcode (quadAt f 0) = 4#4 then 16 else 20) :
    decodeHeader f = none := by
  simp only [decodeHeader, if_pos h, ite_self]

end

theorem step_undecoded {s : State} {port : Port} {bytes : List Byte} {rest : List Presentation} {e : DecodeError}
    (hin : s.input = .message port bytes :: rest) (hdec : decode port bytes = .error e) :
    step s = undecoded port bytes e { s with input := rest } := by
  rw [step_cons hin, take_undecoded hdec]

/-- Settles O3, by what the decoder and `decode_header` give for each of the four and what a step does with a message
that spells no instruction. -/
theorem codesOutsideTheTablesAreNotInstructions : Obligations.CodesOutsideTheTablesAreNotInstructions := by
  refine ⟨fun s code ops rest hcode hin => ?_, fun s code ops rest hcode hin => ?_,
    fun s f rest hlen hcode hin => ⟨?_, ?_⟩, fun s f rest hshort hin => ?_⟩
  · exact step_undecoded hin (decodeCommand_unknown ops hcode)
  · exact step_undecoded hin (decodeEvent_unknown ops hcode)
  · rw [decodeHeader_kind hlen, ofTcode_unknown hcode]
  · exact step_undecoded hin (decodeFrame_unknown hlen hcode)
  · have hnone : decodeHeader f = none := decodeHeader_tooShort (header_short_of_length hshort)
    have hstep := step_undecoded hin (decodeFrame_tooShort (header_short_of_length hshort))
    exact ⟨hnone, hstep.trans (next_codec_congr _ (by rw [reportOther, hnone]))⟩

end Sys2Proof.Machine

/-! ## The CRC (O7, O8) -/

namespace Sys2Proof.Machine

/-! ### The CRC is linear (R79) -/

/-- R79: one turn of the loop is a shift, and the polynomial if the two top bits differ. -/
theorem crcBit_eq (reg : Quadlet) (bit : Bool) :
    crcBit reg bit = reg <<< 1 ^^^ bif reg.msb ^^ bit then 0x04C11DB7#32 else 0#32 := by
  cases h : reg.msb ^^ bit <;> simp [crcBit, h]

/-- R79: the loop is linear over exclusive or, in the register and the message together. -/
theorem crcBit_xor (x y : Quadlet) (a b : Bool) : crcBit (x ^^^ y) (a ^^ b) = crcBit x a ^^^ crcBit y b := by
  have hcond : ((x ^^^ y).msb ^^ (a ^^ b)) = ((x.msb ^^ a) ^^ (y.msb ^^ b)) := by
    rw [BitVec.msb_xor, Bool.xor_assoc, Bool.xor_assoc, Bool.xor_left_comm y.msb]
  have hpoly (p q : Bool) : (bif p ^^ q then 0x04C11DB7#32 else 0#32) =
      (bif p then 0x04C11DB7#32 else 0#32) ^^^ bif q then 0x04C11DB7#32 else 0#32 := by
    cases p <;> cases q <;> rfl
  rw [crcBit_eq, crcBit_eq, crcBit_eq, hcond, hpoly, BitVec.shiftLeft_xor_distrib]
  ac_rfl

theorem crcByte_xor (x y : Quadlet) (a b : Byte) : crcByte (x ^^^ y) (a ^^^ b) = crcByte x a ^^^ crcByte y b := by
  simp only [crcByte, List.foldl_cons, List.foldl_nil, BitVec.getLsbD_xor, crcBit_xor]

theorem foldl_crcByte_be32_xor (x y v w : Quadlet) :
    (be32 (v ^^^ w)).foldl crcByte (x ^^^ y) = (be32 v).foldl crcByte x ^^^ (be32 w).foldl crcByte y := by
  simp only [be32, BitVec.extractLsb'_xor, List.foldl_cons, List.foldl_nil, crcByte_xor]

/-! ### The residue (R79) -/

/-- A message bit equal to the top bit of the register is cancelled by it. -/
theorem crcBit_msb (r : Quadlet) : crcBit r r.msb = r <<< 1 := by
  rw [crcBit_eq, Bool.xor_self, cond_false, BitVec.xor_zero]

theorem extract_top_getLsbD (r : Quadlet) {i : Nat} (hi : i < 8) :
    (r.extractLsb' 24 8).getLsbD i = (r <<< (7 - i)).msb := by
  have hpos : 31 - (7 - i) = 24 + i := by omega
  have htop : ¬ 31 < 7 - i := by omega
  simp [BitVec.msb_eq_getLsbD_last, hpos, htop, hi, BitVec.getLsbD_eq_getElem (show 24 + i < 32 by omega)]

/-- The top byte of the register, as the message byte, is shifted out of it. -/
theorem crcByte_top (r : Quadlet) : crcByte r (r.extractLsb' 24 8) = r <<< 8 := by
  simp (disch := decide) only [crcByte, List.foldl_cons, List.foldl_nil, extract_top_getLsbD, Nat.reduceSub,
    BitVec.shiftLeft_zero, crcBit_msb, ← BitVec.shiftLeft_add, Nat.reduceAdd]

theorem extract_top_shiftLeft (r : Quadlet) {k : Nat} (hk : k ≤ 24) :
    (r <<< k).extractLsb' 24 8 = r.extractLsb' (24 - k) 8 := by
  apply BitVec.eq_of_getLsbD_eq
  intro i hi
  have hpos : 24 + i - k = 24 - k + i := by omega
  simp [hi, hpos]
  omega

/-- A register run over its own bytes is shifted out. -/
theorem foldl_crcByte_be32_self (r : Quadlet) : (be32 r).foldl crcByte r = 0#32 := by
  have h16 := extract_top_shiftLeft r (k := 8) (by decide)
  have h8 := extract_top_shiftLeft r (k := 16) (by decide)
  have h0 := extract_top_shiftLeft r (k := 24) (by decide)
  simp only [Nat.reduceSub] at h16 h8 h0
  simp only [be32, List.foldl_cons, List.foldl_nil, crcByte_top, ← h16, ← h8, ← h0, ← BitVec.shiftLeft_add,
    Nat.reduceAdd]
  exact BitVec.shiftLeft_eq_zero (by decide)

/-- Settles O8: the register `r` after `m` is run over the bytes of its own complement, which leaves what the register 0
leaves of the complement of 0, since `r` is shifted out of itself. -/
theorem crcResidueIsConstant : Obligations.CrcResidueIsConstant := by
  refine ⟨rfl, by decide +kernel, by decide +kernel, fun m => ?_⟩
  rw [crc32, crc32, List.foldl_append]
  generalize m.foldl crcByte 0xFFFFFFFF#32 = r
  have hself : (be32 (r ^^^ 0xFFFFFFFF#32)).foldl crcByte r = (be32 0xFFFFFFFF#32).foldl crcByte 0#32 := by
    have hxor := foldl_crcByte_be32_xor r 0#32 r 0xFFFFFFFF#32
    rwa [BitVec.xor_zero, foldl_crcByte_be32_self, BitVec.zero_xor] at hxor
  rw [hself]
  decide +kernel

/-! ### A flipped bit changes the CRC (R81) -/

/-- The polynomial has its lowest bit set, so a register that a turn takes to 0 was 0. -/
theorem crcBit_false_eq_zero {z : Quadlet} (h : crcBit z false = 0#32) : z = 0#32 := by
  rw [crcBit_eq, Bool.xor_false] at h
  have hmsb : z.msb = false := by
    have hlow := congrArg (BitVec.getLsbD · 0) h
    cases hz : z.msb with
    | false => rfl
    | true => simp [hz] at hlow
  rw [hmsb, cond_false, BitVec.xor_zero] at h
  apply BitVec.eq_of_getLsbD_eq
  intro i hi
  have hshift := congrArg (BitVec.getLsbD · (i + 1)) h
  by_cases htop : i = 31
  · subst htop
    exact hmsb
  · simpa [show i + 1 < 32 by omega, BitVec.getLsbD_eq_getElem hi] using hshift

theorem crcBit_injective (bit : Bool) : Function.Injective (crcBit · bit) := by
  intro x y h
  have hz : crcBit (x ^^^ y) false = 0#32 := by
    rw [← Bool.xor_self bit, crcBit_xor]
    exact BitVec.xor_eq_zero_iff.2 h
  exact BitVec.xor_eq_zero_iff.1 (crcBit_false_eq_zero hz)

theorem crcBit_ne_of_bit_ne (r : Quadlet) {a b : Bool} (h : a ≠ b) : crcBit r a ≠ crcBit r b := by
  intro he
  have hpoly : crcBit (r ^^^ r) (a ^^ b) = 0#32 := by
    rw [crcBit_xor, he, BitVec.xor_self]
  rw [BitVec.xor_self, Bool.xor_iff_ne.2 h] at hpoly
  exact absurd hpoly (by decide)

/-- A loop whose every turn is injective is injective in the value it starts from. -/
theorem foldl_injective {α β : Type} {f : β → α → β} (h : ∀ a, Function.Injective (f · a)) (l : List α) :
    Function.Injective (l.foldl f) := by
  induction l with
  | nil => exact Function.injective_id
  | cons a l ih => exact ih.comp (h a)

theorem crcByte_injective (b : Byte) : Function.Injective (crcByte · b) :=
  foldl_injective (fun _ => crcBit_injective _) _

/-- The bits of a message byte, read in any order that reads bit `j` once: a flip of that bit changes the register. -/
theorem foldl_crcBit_flip_ne (b : Byte) {j : Nat} (hj : j < 8) {l : List Nat} (hl : l.Nodup) (hmem : j ∈ l)
    (r : Quadlet) : l.foldl (fun r i => crcBit r ((b ^^^ BitVec.twoPow 8 j).getLsbD i)) r ≠
      l.foldl (fun r i => crcBit r (b.getLsbD i)) r := by
  have hother (i : Nat) (hi : i ≠ j) : (b ^^^ BitVec.twoPow 8 j).getLsbD i = b.getLsbD i := by
    simp [BitVec.getLsbD_twoPow, Ne.symm hi]
  have hflipped : (b ^^^ BitVec.twoPow 8 j).getLsbD j ≠ b.getLsbD j := by
    simp [hj]
  induction l generalizing r with
  | nil => cases hmem
  | cons i l ih =>
    obtain ⟨hi, hl⟩ := List.nodup_cons.1 hl
    rw [List.foldl_cons, List.foldl_cons]
    by_cases hij : i = j
    · subst hij
      have hrest : ∀ r, l.foldl (fun r i' => crcBit r ((b ^^^ BitVec.twoPow 8 i).getLsbD i')) r =
          l.foldl (fun r i' => crcBit r (b.getLsbD i')) r := fun r =>
        List.foldl_ext _ _ _ fun _ i' hi' => by rw [hother i' (ne_of_mem_of_not_mem hi' hi)]
      rw [hrest]
      exact fun he => crcBit_ne_of_bit_ne r hflipped (foldl_injective (fun _ => crcBit_injective _) l he)
    · rw [hother i hij]
      exact ih hl ((List.mem_cons.1 hmem).resolve_left (Ne.symm hij)) _

theorem crcByte_flip_ne (r : Quadlet) (b : Byte) {j : Nat} (hj : j < 8) :
    crcByte r (b ^^^ BitVec.twoPow 8 j) ≠ crcByte r b :=
  foldl_crcBit_flip_ne b hj (by decide) (by simp; omega) r

theorem flipBit_cons_zero (b : Byte) (m : List Byte) (j : Nat) :
    flipBit (b :: m) 0 j = (b ^^^ BitVec.twoPow 8 j) :: m := rfl

theorem flipBit_cons_succ (b : Byte) (m : List Byte) (i j : Nat) :
    flipBit (b :: m) (i + 1) j = b :: flipBit m i j := rfl

/-- A flipped bit changes the register at its byte, and no byte after it undoes the change. -/
theorem foldl_crcByte_flip_ne {m : List Byte} {i j : Nat} (hi : i < m.length) (hj : j < 8) (r : Quadlet) :
    (flipBit m i j).foldl crcByte r ≠ m.foldl crcByte r := by
  induction m generalizing i r with
  | nil => cases hi
  | cons b m ih =>
    cases i with
    | zero =>
      rw [flipBit_cons_zero, List.foldl_cons, List.foldl_cons]
      exact fun he => crcByte_flip_ne r b hj (foldl_injective crcByte_injective m he)
    | succ i =>
      rw [flipBit_cons_succ, List.foldl_cons, List.foldl_cons]
      exact ih (Nat.lt_of_succ_lt_succ hi) _

theorem crc32_flip_ne {m : List Byte} {i j : Nat} (hi : i < m.length) (hj : j < 8) :
    crc32 (flipBit m i j) ≠ crc32 m :=
  fun he => foldl_crcByte_flip_ne hi hj _ ((BitVec.xor_left_inj _).1 he)

/-- R81, D7: the default functions keep the assumption that is made of replaced ones. -/
theorem detectsFlips_functions : DetectsFlips functions :=
  detectsFlips_iff.2 fun _ _ _ hi hj => crc32_flip_ne hi hj

/-- Settles O7: the flips are the property `DetectsFlips` of the default functions; the other clauses say what `check_crc`
compares. -/
theorem crcChecksAndDetectsEverySingleBitFlip : Obligations.CrcChecksAndDetectsEverySingleBitFlip := by
  refine ⟨fun buf h => if_pos h, fun buf h => ?_, fun c m => checkCrc_withCrc m c, detectsFlips_functions⟩
  rw [checkCrc, if_neg (Nat.not_lt.2 h), beq_iff_eq]
  rfl

end Sys2Proof.Machine

/-! ## The frames: their headers, their rebuilding, their validation (O6, O13, O10, O58, O9, O11) -/

namespace Sys2Proof.Machine

/-! ### The regions of an encoded frame (R69, R81) -/

/-- R90: the header of an encoded frame, its CRC included, checks. -/
theorem checkCrc_slice_header {h : List Byte} {k : Nat} (hk : h.length + 4 = k) (rest : List Byte)
    (c : Config.Functions) : checkCrc (slice (withCrc h c ++ rest) 0 k) c = true := by
  have hslice : slice (withCrc h c ++ rest) 0 k = withCrc h c := List.take_left' (by simp [hk])
  rw [hslice, checkCrc_withCrc]

/-- R90: so does a frame that is a header alone. -/
theorem checkCrc_slice_whole {h : List Byte} {k : Nat} (hk : h.length + 4 = k) (c : Config.Functions) :
    checkCrc (slice (withCrc h c) 0 k) c = true := by
  rw [← List.append_nil (withCrc h c)]
  exact checkCrc_slice_header hk [] c

theorem withCrc_take (m : List Byte) (c : Config.Functions) : (withCrc m c).take m.length = m := List.take_left' rfl

/-! ### The header record of a frame (R89) -/

/-- R60: the destination id of node `n`. -/
theorem destId_eq (n : NodeNum) : destId n = 0xFFC0 ||| n.setWidth 16 := by
  rw [destId, BitVec.append_def]
  rfl

/-- R60: the node a frame came from is the node part of its source id. -/
theorem q1SrcNode_eq (q : Quadlet) : q1SrcNode q = nodeOfId (q1Src q) := by
  apply BitVec.eq_of_getLsbD_eq
  intro i hi
  simp [q1SrcNode, nodeOfId, q1Src, hi]
  omega

theorem fieldIf_of_mem {α : Type} {t : BitVec 4} {codes : List (BitVec 4)} (h : t ∈ codes) (v : α) :
    fieldIf t codes v = some v := if_pos (List.contains_iff_mem.2 h)

section

variable {f : List Byte} {tcode : BitVec 4}

/-- R89: a frame at least as long as its kind's header is not too short. -/
theorem header_fits (ht : q0Tcode (quadAt f 0) = tcode) (hlen : (if tcode = 4#4 then 16 else 20) ≤ f.length) :
    ¬ f.length < 4 ∧ ¬ f.length < if q0Tcode (quadAt f 0) = 4#4 then 16 else 20 := by
  rw [ht]
  refine ⟨?_, Nat.not_lt.2 hlen⟩
  split at hlen <;> omega

/-- R89: the record of a frame of a request kind, its payload where the frame holds it whole. -/
theorem decodeHeader_request {h : ReqHdr} (ht : q0Tcode (quadAt f 0) = tcode) (hh : readReqHdr f = h)
    (hlen : (if tcode = 4#4 then 16 else 20) ≤ f.length) (hreq : tcode ∈ [0x0#4, 0x1#4, 0x4#4, 0x5#4]) :
    ∃ d, decodeHeader f = some d ∧ d.kind = .ofTcode tcode ∧ d.destinationId = h.dest ∧ d.tl = h.tl ∧
      d.addr = some h.addr ∧ d.sourceId = h.src ∧ d.quadletData = fieldIf tcode [0x0#4, 0x6#4] (quadAt f 3) ∧
      d.dataLength = fieldIf tcode [0x1#4, 0x5#4, 0x7#4] (q3Length (quadAt f 3)) ∧
      (tcode = 0x1#4 → 20 + (q3Length (quadAt f 3)).toNat ≤ f.length →
        d.payload = some (slice f 20 (20 + (q3Length (quadAt f 3)).toNat))) := by
  obtain ⟨hfour, hfits⟩ := header_fits ht hlen
  subst ht hh
  refine ⟨_, by rw [decodeHeader, if_neg hfour, if_neg hfits], ?_⟩
  exact ⟨rfl, rfl, rfl, fieldIf_of_mem hreq _, rfl, rfl, rfl, fun hkind hwhole => if_pos (by simp [hkind, hwhole])⟩

/-- R89: the record of a frame of a response kind, its payload where the frame holds it whole. -/
theorem decodeHeader_response {h : RespHdr} (ht : q0Tcode (quadAt f 0) = tcode) (hh : readRespHdr f = h)
    (hlen : 20 ≤ f.length) (hresp : tcode ∈ [0x6#4, 0x7#4]) :
    ∃ d, decodeHeader f = some d ∧ d.kind = .ofTcode tcode ∧ d.destinationId = h.dest ∧ d.tl = h.tl ∧
      d.sourceNode = nodeOfId h.src ∧ d.rcode = some h.rcode ∧
      d.quadletData = fieldIf tcode [0x0#4, 0x6#4] (quadAt f 3) ∧
      d.dataLength = fieldIf tcode [0x1#4, 0x5#4, 0x7#4] (q3Length (quadAt f 3)) ∧
      (tcode = 0x7#4 → 20 + (q3Length (quadAt f 3)).toNat ≤ f.length →
        d.payload = some (slice f 20 (20 + (q3Length (quadAt f 3)).toNat))) := by
  obtain ⟨hfour, hfits⟩ := header_fits ht (by split <;> omega)
  subst ht hh
  refine ⟨_, by rw [decodeHeader, if_neg hfour, if_neg hfits], ?_⟩
  exact ⟨rfl, rfl, rfl, q1SrcNode_eq _, fieldIf_of_mem hresp _, rfl, rfl,
    fun hkind hwhole => if_pos (by simp [hkind, hwhole])⟩

end

/-! ### A block write as header and payload (R86) -/

section

variable (n : NodeNum) (a : Addr) (t : Label) (data : List Byte) (c : Config.Functions)

theorem encBwrite_eq : encBwrite n a t data c =
    withCrc (reqHead 0x1#4 (ownReqHdr n a t) ++ be32 (mkBlockQ3 (BitVec.ofNat 16 data.length) 0#16)) c ++ data :=
  List.append_nil _

theorem encBwrite_length : (encBwrite n a t data c).length = 20 + data.length := by
  simp [encBwrite_eq]

theorem encBwrite_quadlet3 :
    quadAt (encBwrite n a t data c) 3 = mkBlockQ3 (BitVec.ofNat 16 data.length) 0#16 := by
  simp [encBwrite_eq, withCrc]

theorem encBwrite_slice_payload : slice (encBwrite n a t data c) 20 (20 + data.length) = data := by
  rw [encBwrite_eq, slice_after (k := 20) rfl, List.take_length]

theorem encBwrite_header_checks : checkCrc (slice (encBwrite n a t data c) 0 20) c = true := by
  rw [encBwrite_eq]
  exact checkCrc_slice_header rfl data c

end

/-! ### The two responses, to whoever expects another node or label (R87, R88, R91) -/

section

variable (dst : BitVec 16) (s node : NodeNum) (t label : Label) (v : Quadlet) (data : List Byte) (rc : BitVec 4)
  (c : Config.Functions)

theorem encQresp_length : (encQresp dst s t v rc c).length = 20 := by
  simp [encQresp]

theorem encQresp_quadlet0 : quadAt (encQresp dst s t v rc c) 0 = mkQ0 dst t 0#2 0x6#4 0#4 := by
  simp [encQresp, withCrc, respHead, ownRespHdr]

theorem encQresp_quadlet1 : quadAt (encQresp dst s t v rc c) 1 = mkRespQ1 (destId s) rc 0#12 := by
  simp [encQresp, withCrc, respHead, ownRespHdr]

theorem encQresp_quadlet3 : quadAt (encQresp dst s t v rc c) 3 = v := by
  simp [encQresp, withCrc]

theorem encQresp_checks : checkCrc (slice (encQresp dst s t v rc c) 0 20) c = true :=
  checkCrc_slice_whole rfl c

theorem encBresp_header_checks : checkCrc (slice (encBresp dst s t data rc c) 0 20) c = true := by
  rw [encBresp_slice_header]
  exact checkCrc_withCrc ..

theorem encBresp_data_checks : checkCrc (slice (encBresp dst s t data rc c) 20 (20 + data.length + 4)) c = true := by
  rw [encBresp_slice_data, checkCrc_withCrc]

/-- R91: the length, the transaction code and the CRC of a quadlet response are right; what is left are its node and
label. -/
theorem validateResponse_encQresp_verdict (len : Nat) :
    validateResponse (encQresp dst s t v rc c) node 0x6#4 label len c =
      if s ≠ node then .nodeMismatch else if t ≠ label then .labelMismatch else .valid := by
  simp [validateResponse, encQresp_length, encQresp_quadlet0, encQresp_quadlet1, encQresp_checks]

/-- R91: so it is for a block response, its data CRC included. -/
theorem validateResponse_encBresp_verdict (h : data.length < 65536) :
    validateResponse (encBresp dst s t data rc c) node 0x7#4 label data.length c =
      if s ≠ node then .nodeMismatch else if t ≠ label then .labelMismatch else .valid := by
  simp [validateResponse, encBresp_length, encBresp_quadlet0, encBresp_quadlet1, encBresp_quadlet3,
    encBresp_header_checks, encBresp_data_checks, Nat.mod_eq_of_lt h]

end

/-- Settles O10, by the verdict on each of the two responses. -/
theorem encodedResponsesValidate : Obligations.EncodedResponsesValidate := fun dst s node t label v rc data h =>
  ⟨validateResponse_encQresp_verdict dst s node t label v rc functions 4,
    validateResponse_encBresp_verdict dst s node t label data rc functions (Nat.lt_succ_of_le h)⟩

/-! ### What the encoders were given, read back (R90) -/

/-- Settles O6: each frame has the transaction code and the header fields its encoder was given, and so its record has
them; the CRC covers the header region. -/
theorem headerRoundTrip : Obligations.HeaderRoundTrip := by
  intro n s a t v len data dst rc hmax
  have hcount : (BitVec.ofNat 16 data.length).toNat = data.length := Nat.mod_eq_of_lt (Nat.lt_succ_of_le hmax)
  refine ⟨?_, ?_, ?_, ?_, ?_, ?_⟩
  · obtain ⟨d, hd, hkind, hdest, htl, haddr, hsrc, -⟩ := decodeHeader_request (f := encQread n a t)
      (h := ownReqHdr n a t) (tcode := 0x4#4) (by simp [encQread, withCrc]) (by simp [encQread, withCrc])
      (by simp [encQread]) (by decide)
    exact ⟨d, hd, hkind, hdest.trans (destId_eq n), htl, haddr, hsrc, checkCrc_slice_whole rfl _⟩
  · obtain ⟨d, hd, hkind, hdest, htl, haddr, hsrc, hdata, -⟩ := decodeHeader_request (f := encQwrite n a t v)
      (h := ownReqHdr n a t) (tcode := 0x0#4) (by simp [encQwrite, withCrc]) (by simp [encQwrite, withCrc])
      (by simp [encQwrite]) (by decide)
    have hv : quadAt (encQwrite n a t v) 3 = v := by simp [encQwrite, withCrc]
    exact ⟨d, hd, hkind, hdest.trans (destId_eq n), htl, haddr, hsrc, hdata.trans (congrArg some hv),
      checkCrc_slice_whole rfl _⟩
  · obtain ⟨d, hd, hkind, hdest, htl, haddr, hsrc, -, hlen, -⟩ := decodeHeader_request (f := encBread n a t len)
      (h := ownReqHdr n a t) (tcode := 0x5#4) (by simp [encBread, withCrc]) (by simp [encBread, withCrc])
      (by simp [encBread]) (by decide)
    have hq : q3Length (quadAt (encBread n a t len) 3) = len := by simp [encBread, withCrc]
    exact ⟨d, hd, hkind, hdest.trans (destId_eq n), htl, haddr, hsrc, hlen.trans (congrArg some hq),
      checkCrc_slice_whole rfl _⟩
  · obtain ⟨d, hd, hkind, hdest, htl, haddr, hsrc, -, hlen, hpayload⟩ := decodeHeader_request
      (f := encBwrite n a t data) (h := ownReqHdr n a t) (tcode := 0x1#4) (by simp [encBwrite_eq, withCrc])
      (by simp [encBwrite_eq, withCrc]) (by simp [encBwrite_length]) (by decide)
    rw [encBwrite_quadlet3, q3Length_mkBlockQ3] at hlen hpayload
    rw [hcount, encBwrite_slice_payload] at hpayload
    refine ⟨d, hd, hkind, hdest.trans (destId_eq n), htl, haddr, hsrc, ?_, ?_, encBwrite_header_checks ..⟩
    · rw [hlen]; exact congrArg some hcount
    · exact hpayload rfl (by simp [encBwrite_length])
  · obtain ⟨d, hd, hkind, hdest, htl, hnode, hrc, hdata, -⟩ := decodeHeader_response (f := encQresp dst s t v rc)
      (h := ownRespHdr dst s t rc) (tcode := 0x6#4) (by simp [encQresp, withCrc]) (by simp [encQresp, withCrc])
      (by simp [encQresp]) (by decide)
    exact ⟨d, hd, hkind, hdest, htl, hnode.trans (nodeOfId_destId s), hrc,
      hdata.trans (congrArg some (encQresp_quadlet3 ..)), encQresp_checks ..⟩
  · obtain ⟨d, hd, hkind, hdest, htl, hnode, hrc, -, hlen, hpayload⟩ := decodeHeader_response
      (f := encBresp dst s t data rc) (h := ownRespHdr dst s t rc) (tcode := 0x7#4)
      (by simp [encBresp_quadlet0]) (by simp [encBresp, withCrc]) (by simp [encBresp_length]; omega) (by decide)
    rw [encBresp_quadlet3, q3Length_mkBlockQ3] at hlen hpayload
    rw [hcount, encBresp_slice_payload] at hpayload
    refine ⟨d, hd, hkind, hdest, htl, hnode.trans (nodeOfId_destId s), hrc, ?_, ?_, encBresp_header_checks ..⟩
    · rw [hlen]; exact congrArg some hcount
    · exact hpayload rfl (by simp [encBresp_length])

/-! ### Encoded frames, presented to the codec (R83 to R90) -/

section

variable (dst : BitVec 16) (n : NodeNum) (a : Addr) (t : Label) (v : Quadlet) (len : BitVec 16) (data : List Byte)
  (rc : BitVec 4)

theorem exists_encode_eq_encQread : ∃ crc, encode (.qread (ownReqHdr n a t) crc) = encQread n a t := ⟨_, rfl⟩

theorem exists_encode_eq_encQwrite : ∃ crc, encode (.qwrite (ownReqHdr n a t) v crc) = encQwrite n a t v :=
  ⟨_, rfl⟩

theorem exists_encode_eq_encBread : ∃ crc, encode (.bread (ownReqHdr n a t) len 0#16 crc) = encBread n a t len :=
  ⟨_, rfl⟩

theorem exists_encode_eq_encQresp : ∃ crc, encode (.qresp (ownRespHdr dst n t rc) v crc) = encQresp dst n t v rc :=
  ⟨_, rfl⟩

/-- R86: by default nothing follows the payload. -/
theorem exists_encode_eq_encBwrite : ∃ crc,
    encode (.bwrite (ownReqHdr n a t) (BitVec.ofNat 16 data.length) 0#16 crc data) = encBwrite n a t data :=
  ⟨_, (encBwrite_eq ..).symm⟩

/-- R88: the payload is followed by its CRC. -/
theorem exists_encode_eq_encBresp : ∃ crc,
    encode (.bresp (ownRespHdr dst n t rc) (BitVec.ofNat 16 data.length) 0#16 crc (withCrc data)) =
      encBresp dst n t data rc :=
  ⟨_, (encBresp_eq ..).symm⟩

end

/-- A frame, presented to the codec, is decoded as its kind, checks, and is rebuilt. -/
def RebuiltAs (st : State) (f : List Byte) (kind : FrameKind) (dataCrc : Option Bool) : Prop :=
  ∃ (i : Instr) (r : CodecReport), decode .codec f = .ok i ∧ encode i = f ∧
    exec i st = .next { st with out := st.out ++ [.codec r] } ∧
    r.header.map HeaderRecord.kind = some kind ∧ r.headerCrcOk = some true ∧ r.dataCrcOk = dataCrc ∧
    r.rebuilt = some f

section

variable {st : State} {f rebuilt : List Byte} {i : Instr} {kind : FrameKind} {P : HeaderRecord → Prop}

theorem header_kind_of (h : ∃ d, decodeHeader f = some d ∧ d.kind = kind ∧ P d) :
    (decodeHeader f).map HeaderRecord.kind = some kind := by
  obtain ⟨d, hd, hkind, -⟩ := h
  rw [hd, Option.map_some, hkind]

/-- A frame that is a header alone, whose fields the encoder builds it from again. -/
theorem rebuiltAs_plain (hf : encode i = f) (hdec : decodeFrame (encode i) = .ok i)
    (hexec : exec i st = .next { st with out := st.out ++ [.codec
      { header := decodeHeader (encode i)
        headerCrcOk := some (checkCrc (encode i))
        dataCrcOk := none
        rebuilt := some rebuilt }] })
    (hheader : ∃ d, decodeHeader f = some d ∧ d.kind = kind ∧ P d) (hcrc : checkCrc f = true) (hrebuilt : rebuilt = f) :
    RebuiltAs st f kind none := by
  subst hf
  exact ⟨i, _, hdec, rfl, hexec, header_kind_of hheader, congrArg some hcrc, rfl, congrArg some hrebuilt⟩

end

/-- Settles O13: each frame is an encoded instruction, with the header record of O6, and the codec answers it as O12
says. -/
theorem encodedFramesAreRebuilt : Obligations.EncodedFramesAreRebuilt := by
  intro st n s a t v len data dst rc f kind dataCrc hmax hmem
  have hcount : (BitVec.ofNat 16 data.length).toNat = data.length := Nat.mod_eq_of_lt (Nat.lt_succ_of_le hmax)
  obtain ⟨hqread, hqwrite, hbread, hbwrite, hqresp, hbresp⟩ := headerRoundTrip n s a t v len data dst rc hmax
  obtain ⟨hexecQwrite, hexecQread, hexecBread, hexecQresp, hexecBwrite, hexecBresp⟩ := codecAnswersEveryFrameKind
  simp only [List.mem_cons, Prod.mk.injEq, List.not_mem_nil, or_false] at hmem
  obtain ⟨rfl, rfl, rfl⟩ | ⟨rfl, rfl, rfl⟩ | ⟨rfl, rfl, rfl⟩ | ⟨rfl, rfl, rfl⟩ | ⟨rfl, rfl, rfl⟩ | ⟨rfl, rfl, rfl⟩ :=
    hmem
  · obtain ⟨crc, hf⟩ := exists_encode_eq_encQread n a t
    exact rebuiltAs_plain hf (decodeFrame_encode_qread ..) (hexecQread st _ crc) hqread (checkCrc_withCrc ..)
      (by simp [ownReqHdr])
  · obtain ⟨crc, hf⟩ := exists_encode_eq_encQwrite n a t v
    exact rebuiltAs_plain hf (decodeFrame_encode_qwrite ..) (hexecQwrite st _ v crc) hqwrite (checkCrc_withCrc ..)
      (by simp [ownReqHdr])
  · obtain ⟨crc, hf⟩ := exists_encode_eq_encBread n a t len
    exact rebuiltAs_plain hf (decodeFrame_encode_bread ..) (hexecBread st _ len _ crc) hbread (checkCrc_withCrc ..)
      (by simp [ownReqHdr])
  · obtain ⟨crc, hf⟩ := exists_encode_eq_encBwrite n a t data
    refine ⟨_, _, ?_, hf, hexecBwrite st .., ?_, ?_, rfl, ?_⟩
    · rw [← hf]; exact decodeFrame_encode_bwrite ..
    · rw [hf]; exact header_kind_of hbwrite
    · rw [hf]; exact congrArg some (encBwrite_header_checks ..)
    · simp [hcount, ownReqHdr]
  · obtain ⟨crc, hf⟩ := exists_encode_eq_encQresp dst s t v rc
    exact rebuiltAs_plain hf (decodeFrame_encode_qresp ..) (hexecQresp st _ v crc) hqresp (checkCrc_withCrc ..)
      (by simp [ownRespHdr])
  · obtain ⟨crc, hf⟩ := exists_encode_eq_encBresp dst s t data rc
    refine ⟨_, _, ?_, hf, hexecBresp st .., ?_, ?_, ?_, ?_⟩
    · rw [← hf]; exact decodeFrame_encode_bresp ..
    · rw [hf]; exact header_kind_of hbresp
    · rw [hf]; exact congrArg some (encBresp_header_checks ..)
    · simp [hcount, List.take_of_length_le]
    · simp [hcount, ownRespHdr, withCrc_take]

/-! ### A whole quadlet read (R109, R118, R128, R130) -/

/-- R129, R130: a valid quadlet response of the right generation ends the quadlet read with its data word. -/
theorem exec_recvDone_quadletRead {s : State} {b : BoardId} {a : Addr} {n : NodeNum} {l : Label}
    {fr tr : List Byte} (hp : s.phase = .waitRecv) (hf : s.inflight = some (Inflight.sent (.rq b a) n l))
    (hv : validateResponse fr n 0x6#4 l 4 = .valid) (htr : tr.length = 8) (hg : byteAt tr 1 = s.busGen) :
    exec (.recvDone (.bytes (fr ++ tr))) s =
      .next (((s.acceptTrailer tr).capUpdate b).finish (.okQuadlet (quadAt fr 3))) :=
  (inPhase_of hp hf _).trans (congrArg Host.Outcome.next (judgeUnicast_delivers hv htr hg ..))

/-- Settles O58: the request goes out, the response is awaited, and what the board answered passes every check. -/
theorem quadletReadCycleDeliversTheWord : Obligations.QuadletReadCycleDeliversTheWord := by
  intro s bid n a dst rc v t0 t2 t3 t4 t5 t6 t7 hidle ho hfresh hpres hn
  have hvalid : validateResponse (encQresp dst (nodeNum n) s.tl v rc) (nodeNum n) 0x6#4 s.tl 4 = .valid := by
    simp [validateResponse_encQresp_verdict]
  refine ⟨_, _, _, exec_unicast_mapped rfl (toNat_ofBoard bid) rfl hidle hpres (by simp) ho hfresh hn,
    exec_sendDone_read rfl rfl (.inl rfl), exec_recvDone_quadletRead rfl rfl hvalid rfl rfl, ?_, rfl, ?_, ?_, ?_⟩
  · simp [encQresp_quadlet3, Pending.frame, ethWrap, makeCtrl, nodeNum]
  · simp
  · simp [ho]
  · simp

/-! ### The first check that fails (R91, R131) -/

/-- R91: the verdict of five checks in order; the one that a rule does not make counts as passed. -/
def firstFailing (lengthOk nodeOk tcodeOk labelOk crcOk : Prop) [Decidable lengthOk] [Decidable nodeOk]
    [Decidable tcodeOk] [Decidable labelOk] [Decidable crcOk] : Verdict :=
  if ¬ lengthOk then .lengthMismatch
  else if ¬ nodeOk then .nodeMismatch
  else if ¬ tcodeOk then .tcodeMismatch
  else if ¬ labelOk then .labelMismatch
  else if ¬ crcOk then .crcFailure
  else .valid

section

variable (l n t b c : Prop) [Decidable l] [Decidable n] [Decidable t] [Decidable b] [Decidable c]

/-- R91: each verdict is the failure of its check, the checks before it passed. -/
theorem firstFailing_iff :
    (firstFailing l n t b c = .lengthMismatch ↔ ¬ l) ∧ (firstFailing l n t b c = .nodeMismatch ↔ l ∧ ¬ n) ∧
    (firstFailing l n t b c = .tcodeMismatch ↔ l ∧ n ∧ ¬ t) ∧
    (firstFailing l n t b c = .labelMismatch ↔ l ∧ n ∧ t ∧ ¬ b) ∧
    (firstFailing l n t b c = .crcFailure ↔ l ∧ n ∧ t ∧ b ∧ ¬ c) ∧
    (firstFailing l n t b c = .valid ↔ l ∧ n ∧ t ∧ b ∧ c) := by
  unfold firstFailing
  split_ifs <;> simp [*]

/-- R131 step 2: without the checks of node and label their two verdicts cannot come. -/
theorem firstFailing_unaddressed_iff :
    (firstFailing l True t True c = .lengthMismatch ↔ ¬ l) ∧ (firstFailing l True t True c = .tcodeMismatch ↔ l ∧ ¬ t) ∧
    (firstFailing l True t True c = .crcFailure ↔ l ∧ t ∧ ¬ c) ∧ (firstFailing l True t True c = .valid ↔ l ∧ t ∧ c) ∧
    firstFailing l True t True c ≠ .nodeMismatch ∧ firstFailing l True t True c ≠ .labelMismatch := by
  simp [firstFailing_iff]

end

/-- R91: the two tests of the length are one check, and so are the two of the CRC. -/
theorem validateResponse_eq_firstFailing {f : List Byte} {node : NodeNum} {tcode : BitVec 4} {label : Label}
    {len want : Nat} (h : (tcode = 0x6 ∧ want = 20) ∨ (tcode = 0x7 ∧ want = 20 + len + 4)) :
    validateResponse f node tcode label len =
      firstFailing (f.length = want ∧ (tcode = 0x7 → (q3Length (quadAt f 3)).toNat = len))
        (q1SrcNode (quadAt f 1) = node) (q0Tcode (quadAt f 0) = tcode) (q0Tl (quadAt f 0) = label)
        (checkCrc (slice f 0 20) = true ∧ (tcode = 0x7 → checkCrc (slice f 20 want) = true)) := by
  have hwant : (if tcode = 0x6#4 then 20 else 20 + len + 4) = want := by
    obtain ⟨rfl, rfl⟩ | ⟨rfl, rfl⟩ := h <;> rfl
  simp only [validateResponse, firstFailing, hwant, Classical.not_and_iff_not_or_not, Classical.not_imp,
    Bool.not_eq_true, ← ite_or]
  rfl

/-- R131 step 2: the checks of an aggregated response, among the five of R91. -/
theorem validateBroadcast_eq_firstFailing (f : List Byte) : validateBroadcast f =
    firstFailing (24 ≤ f.length ∧ f.length = 20 + (q3Length (quadAt f 3)).toNat + 4 ∧
        (q3Length (quadAt f 3)).toNat ≠ 0 ∧ (q3Length (quadAt f 3)).toNat % 4 = 0)
      True (q0Tcode (quadAt f 0) = 0x7) True
      (checkCrc (slice f 0 20) = true ∧ checkCrc (slice f 20 (20 + (q3Length (quadAt f 3)).toNat + 4)) = true) := by
  simp only [validateBroadcast, firstFailing, Classical.not_and_iff_not_or_not, Bool.not_eq_true, not_true, if_false,
    ← ite_or, Nat.not_le, ne_eq, not_not]
  rfl

/-- Settles O9: both validations are the first of five checks that fails. -/
theorem validationReportsTheFirstFailingCheck : Obligations.ValidationReportsTheFirstFailingCheck := by
  refine ⟨fun f node tcode label len want h => ?_, fun f => ?_⟩
  · rw [validateResponse_eq_firstFailing h]
    exact firstFailing_iff ..
  · rw [validateBroadcast_eq_firstFailing]
    exact firstFailing_unaddressed_iff ..

/-! ### Ethernet framing (R92 to R94) -/

/-- Settles O11, field by field. -/
theorem ethernetFraming : Obligations.EthernetFraming := by
  refine ⟨fun nf g f => ⟨rfl, ?_, rfl⟩, fun c0 c1 => rfl, fun rx h => if_pos h, fun f tr h => ethSplit_append h f,
    fun t0 t1 t2 t3 t4 t5 t6 t7 => ⟨rfl, rfl, rfl, rfl, rfl, ?_, ?_⟩⟩
  · simp [parseCtrl, makeCtrl, byteAt]
  all_goals simp [decodeExtraTrailer, ticksToSeconds, byteAt, fromBe16]

end Sys2Proof.Machine

/-! ## The board-to-node mapper: its commands, the map of a revalidation answer, and where the machine stops (O14 to O26, O49) -/

namespace Sys2Proof.Machine

/-! ### The checks of a command of the mapper, in order (R96) -/

/-- R139: what is left of a command on a board, behind the test that its operand is a board id. -/
theorem withBoard_checks {s : State} {i : Instr} {b : Byte} {k : BoardId → StepOutcome} {P : BoardId → Prop}
    (hi : exec i s = withBoard s b k) (hk : ∀ bid, exec i s = k bid → P bid) :
    (16 ≤ b.toNat → Answers i s .outOfRange) ∧ ∀ bid : BoardId, b.toNat = bid.val → P bid :=
  ⟨fun hb => hi.trans (withBoard_outOfRange hb s k), fun bid hb => hk bid (hi.trans (withBoard_of hb s k))⟩

/-- R37: the same, behind the test of the phase. -/
theorem boardCommand_checks {s : State} {i : Instr} {b : Byte} {k : BoardId → StepOutcome} {P : BoardId → Prop}
    (hi : exec i s = whenIdle s (withBoard s b k)) (hk : ∀ bid, exec i s = k bid → P bid) :
    (s.phase ≠ .idle → Answers i s .busy) ∧
    (s.phase = .idle →
      (16 ≤ b.toNat → Answers i s .outOfRange) ∧ ∀ bid : BoardId, b.toNat = bid.val → P bid) :=
  ⟨fun hbusy => hi.trans (whenIdle_busy hbusy _),
    fun hidle => withBoard_checks (hi.trans (whenIdle_idle hidle _)) hk⟩

/-- R146 (b): what is left of a command, behind the test of the port state. -/
theorem unlessClosed_checks {s : State} {i : Instr} {k : StepOutcome} (hi : exec i s = unlessClosed s k) :
    (s.portState = .closed → Answers i s .notOperational) ∧ (s.portState ≠ .closed → exec i s = k) :=
  ⟨fun hc => hi.trans (unlessClosed_closed hc k), fun ho => hi.trans (unlessClosed_open ho k)⟩

/-- R140 (a): what is left of a command, behind the test that its board is registered. -/
theorem whenRegistered_checks {s : State} {i : Instr} {bid : BoardId} {k : StepOutcome}
    (hi : exec i s = whenRegistered s bid k) :
    ((s.slot bid).present = false → Answers i s .notFound) ∧ ((s.slot bid).present = true → exec i s = k) :=
  ⟨fun he => hi.trans (whenRegistered_empty he k), fun hp => hi.trans (whenRegistered_of hp k)⟩

/-- The two tests together, in their order. -/
theorem registeredOpen_checks {s : State} {i : Instr} {bid : BoardId} {k : StepOutcome}
    (hi : exec i s = whenRegistered s bid (unlessClosed s k)) :
    ((s.slot bid).present = false → Answers i s .notFound) ∧
    ((s.slot bid).present = true → s.portState = .closed → Answers i s .notOperational) ∧
    ((s.slot bid).present = true → s.portState ≠ .closed → exec i s = k) := by
  obtain ⟨hempty, hpres⟩ := whenRegistered_checks hi
  exact ⟨hempty, fun hp => (unlessClosed_checks (hpres hp)).1, fun hp => (unlessClosed_checks (hpres hp)).2⟩

/-! ### Adding and removing a board (R97, R98) -/

/-- Settles O14: behind the checks the command is its test of the count. -/
theorem addBoardRegistersAndCounts : Obligations.AddBoardRegistersAndCounts := by
  intro s b fw cap
  refine boardCommand_checks rfl fun bid hi => ?_
  obtain ⟨hclosed, hopen⟩ := unlessClosed_checks hi
  exact ⟨hclosed, fun ho hfull => (hopen ho).trans (if_pos hfull), fun ho hroom => (hopen ho).trans (if_neg hroom)⟩

theorem State.freeNodeOf_node2board (s : State) (b : BoardId) :
    (s.freeNodeOf b).node2board = match (s.slot b).node with
      | some n => s.node2board.set n.val none n.isLt
      | none => s.node2board := by
  cases h : (s.slot b).node <;> simp [State.freeNodeOf, h, State.setBoardAt]

theorem State.unassign_eq (s : State) (b : BoardId) :
    s.unassign b = { s with
      slots := s.slots.set b.val { s.slot b with node := none } b.isLt
      node2board := (s.freeNodeOf b).node2board } := by
  rw [State.unassign, State.freeNodeOf_tables]
  rfl

theorem State.unregister_eq (s : State) (b : BoardId) :
    s.unregister b = { s with
      slots := s.slots.set b.val { s.slot b with present := false, node := none } b.isLt
      node2board := (s.freeNodeOf b).node2board
      inUseMask := s.inUseMask &&& ~~~ BitVec.twoPow 16 b.val
      numBoards := s.numBoards - 1#32 } := by
  simp [State.unregister, State.unassign_eq, State.setSlot, State.slot]

theorem CountCovers.count_pos {s : State} (h : CountCovers s) {b : BoardId} (hb : (s.slot b).present = true) :
    0 < s.numBoards.toNat := by
  rw [CountCovers, State.registered_eq_card] at h
  exact (Finset.card_pos.2 ⟨b, State.mem_boards.2 hb⟩).trans_le h

/-- Settles O15: a count that covers a registered board is not 0. -/
theorem removeBoardClearsTheSlot : Obligations.RemoveBoardClearsTheSlot := by
  intro s b
  refine boardCommand_checks rfl fun bid hi => ?_
  obtain ⟨hempty, hclosed, hopen⟩ := registeredOpen_checks hi
  refine ⟨hempty, hclosed, fun hp ho => ?_, fun hp hcount => ?_⟩
  · rw [hopen hp ho, State.unregister_eq, State.freeNodeOf_node2board]
    rfl
  · have := hcount.count_pos hp
    bv_omega

/-- Settles O18, by what freeing a board's node writes. -/
theorem unmapNodeFreesTheNode : Obligations.UnmapNodeFreesTheNode := by
  intro s b
  refine boardCommand_checks rfl fun bid hi => ?_
  obtain ⟨hempty, hclosed, hopen⟩ := registeredOpen_checks hi
  refine ⟨hempty, hclosed, fun hp ho => ?_⟩
  rw [hopen hp ho, State.unassign_eq, State.freeNodeOf_node2board]
  rfl

/-- R98 (iv): the bit that `ADD_BOARD` sets in a mask without it is the bit that `REMOVE_BOARD` clears. -/
theorem clearBit_setBit {m : BitVec 16} {b : BoardId} (h : m.getLsbD b.val = false) :
    (m ||| BitVec.twoPow 16 b.val) &&& ~~~ BitVec.twoPow 16 b.val = m := by
  refine BitVec.eq_of_getLsbD_eq fun i hi => ?_
  have hclear := clearBit_getLsbD (m ||| BitVec.twoPow 16 b.val) b ⟨i, hi⟩
  have hset := setBit_getLsbD m b ⟨i, hi⟩
  rw [hclear, hset]
  split
  · next hib => rw [← h, ← hib]
  · rfl

/-- R98 (iv): `REMOVE_BOARD` takes back an `ADD_BOARD` to an empty slot in everything but the slot's latched fields. -/
theorem State.unregister_register {s : State} {b : BoardId} (hmask : s.inUseMask.getLsbD b.val = false)
    (hnode : (s.slot b).node = none) (fw : Quadlet) (cap : Bool) (o : Output) :
    ((s.register b fw cap).emit o).unregister b =
      { s with slots := (((s.register b fw cap).emit o).unregister b).slots, out := s.out ++ [o] } := by
  have hnode' : (((s.register b fw cap).emit o).slot b).node = none := by simp [hnode]
  rw [State.unregister_eq, State.freeNodeOf_node2board, hnode']
  simp [clearBit_setBit hmask]

theorem exec_addBoard {s : State} {b : Byte} {bid : BoardId} (hidle : s.phase = .idle) (hb : b.toNat = bid.val)
    (ho : s.portState ≠ .closed) (hroom : s.numBoards ≠ 0xFFFFFFFF) (fw : Quadlet) (cap : Bool) :
    exec (.addBoard b fw cap) s = .next ((s.register bid fw cap).result .ok) :=
  (whenIdle_idle hidle _).trans ((withBoard_of hb ..).trans ((unlessClosed_open ho _).trans (if_neg hroom)))

theorem exec_removeBoard {s : State} {b : Byte} {bid : BoardId} (hidle : s.phase = .idle) (hb : b.toNat = bid.val)
    (hp : (s.slot bid).present = true) (ho : s.portState ≠ .closed) :
    exec (.removeBoard b) s = .next ((s.unregister bid).result .ok) :=
  (whenIdle_idle hidle _).trans
    ((withBoard_of hb ..).trans ((whenRegistered_of hp _).trans (unlessClosed_open ho _)))

/-- Settles O16: the slot is empty and without a node, so what the two commands write cancels. -/
theorem removeUndoesAddToAnEmptySlot : Obligations.RemoveUndoesAddToAnEmptySlot := by
  intro s b fw cap ⟨hmask, _, hempty, _⟩ hidle ho hroom hpres
  have hpres' : (((s.register b fw cap).result .ok).slot b).present = true := by simp [State.register_slot]
  have hundone : (((s.register b fw cap).result .ok).unregister b).result .ok = { s with
      slots := ((((s.register b fw cap).result .ok).unregister b).result .ok).slots
      out := s.out ++ [.result .ok] ++ [.result .ok] } :=
    congrArg (State.result · .ok)
      (State.unregister_register ((hmask b).trans hpres) (hempty b hpres) fw cap (.result .ok))
  refine ⟨_, _, exec_addBoard hidle (toNat_ofBoard b) ho hroom fw cap,
    exec_removeBoard hidle (toNat_ofBoard b) hpres' ho, by rw [hundone], by rw [hundone], by rw [hundone],
    fun c => ?_, hundone⟩
  rw [State.result_slot, State.unregister_slot, State.result_slot, State.result_slot, State.register_slot,
    State.register_slot]
  split
  · next hcb => rw [hcb]; exact ⟨hpres.symm, (hempty b hpres).symm⟩
  · exact ⟨rfl, rfl⟩

/-! ### Assigning a node (R99) -/

/-- Settles O17: what R99 steps 5 to 7 write is read off for maps that are inverses. -/
theorem mapNodeNewestAssignmentWins : Obligations.MapNodeNewestAssignmentWins := by
  intro s b n
  refine boardCommand_checks rfl fun bid hi => ?_
  obtain ⟨hempty, hpres⟩ := whenRegistered_checks hi
  refine ⟨hempty, fun hp hn => (hpres hp).trans (withNode_outOfRange hn s _), fun nid hn hp => ?_⟩
  obtain ⟨hclosed, hopen⟩ := unlessClosed_checks ((hpres hp).trans (withNode_of hn s _))
  refine ⟨hclosed, fun ho hmaps => ⟨_, hopen ho, ?_, State.mapNode_slot hmaps bid nid, fun m => ?_⟩⟩
  · exact congrArg (State.result · .ok) (State.mapNode_tables s bid nid)
  · rw [State.result_boardAt, State.mapNode_boardAt, ← ite_congr (propext (hmaps bid m)) (fun _ => rfl) fun _ => rfl]

/-! ### The lookups and the aggregate (R103 to R107) -/

/-- Settles O19, by the checks. -/
theorem boardExistsAnswersTheSlot : Obligations.BoardExistsAnswersTheSlot := by
  intro s b
  refine boardCommand_checks rfl fun bid hi => ?_
  obtain ⟨hclosed, hopen⟩ := unlessClosed_checks hi
  exact ⟨hclosed, hopen, fun ho hmask => hmask bid ▸ hopen ho⟩

/-- Settles O20, by the checks. -/
theorem fwVersionAnswersTheLatchedVersion : Obligations.FwVersionAnswersTheLatchedVersion := by
  intro s b
  exact boardCommand_checks rfl fun bid hi => registeredOpen_checks hi

/-- R101: what a lookup leads to, when its command runs in `IDLE` with nothing in flight and ends with its answer. -/
theorem lookup_outcomes {s : State} {i : Instr} {p : Pending} {r : Result} (hidle : s.phase = .idle)
    (hnone : s.inflight = none) {k : State → State} (hk : k s = s.finish r)
    (hi : exec i s = .next (s.lookup p k)) :
    (¬ (s.staleMap = true ∧ s.portState = .operational) → Answers i s r) ∧
    (s.staleMap = true → s.portState = .operational → exec i s = .next { s with
      staleMap := false
      inflight := some (Inflight.held p)
      phase := .waitReval
      out := s.out ++ [.revalidate] }) := by
  refine ⟨fun hfresh => ?_, fun hstale ho => ?_⟩
  · rw [State.lookup_fresh hfresh, hk, State.finish_idle hidle hnone] at hi
    exact hi
  · rw [State.lookup_stale hstale ho] at hi
    exact hi

/-- Settles O21, by the two outcomes of the lookup. -/
theorem nodeForBoardAnswersOrRevalidates : Obligations.NodeForBoardAnswersOrRevalidates := by
  intro s b
  refine ⟨fun hbusy => whenIdle_busy hbusy _, fun hidle hnone => ?_⟩
  refine withBoard_checks (whenIdle_idle hidle _) fun bid hi => ?_
  obtain ⟨hclosed, hopen⟩ := unlessClosed_checks hi
  refine ⟨hclosed, fun ho hfresh => ?_, fun hstale ho => ?_⟩
  · have hanswer := (lookup_outcomes hidle hnone (State.answerNodeFor_eq s bid) (hopen ho)).1 hfresh
    exact ⟨fun n hn => by rwa [hn] at hanswer, fun hn => by rwa [hn] at hanswer⟩
  · exact (lookup_outcomes hidle hnone (State.answerNodeFor_eq s bid) (hopen (by simp [ho]))).2 hstale ho

/-- Settles O22: a node id goes to the lookup, any other number is answered at once. -/
theorem boardForNodeAnswersOrRevalidates : Obligations.BoardForNodeAnswersOrRevalidates := by
  intro s n
  refine ⟨fun hbusy => whenIdle_busy hbusy _, fun hidle hnone => ?_⟩
  obtain ⟨hclosed, hopen⟩ := unlessClosed_checks (i := .boardForNode n) (whenIdle_idle hidle _)
  refine ⟨hclosed, fun ho hn => ?_, fun nid hn ho => ?_⟩
  · have hanswer := hopen ho
    rw [nodeOf_eq_none.2 hn] at hanswer
    exact hanswer
  · have hlookup := hopen ho
    rw [nodeOf_eq_some.2 hn] at hlookup
    obtain ⟨hanswer, hask⟩ := lookup_outcomes hidle hnone (State.answerBoardFor_eq s nid) hlookup
    refine ⟨fun hfresh => ?_, hask⟩
    replace hanswer := hanswer hfresh
    exact ⟨fun b hb => by rwa [hb] at hanswer, fun hb => by rwa [hb] at hanswer⟩

theorem State.bcAll_of_incapable {s : State} {b : BoardId} (hp : (s.slot b).present = true)
    (hb : (s.slot b).bcCapable = false) : s.bcAll = false := by
  rw [← Bool.not_eq_true, s.bcAll_iff]
  intro hall
  exact absurd (hall b hp) (by simp [hb])

/-- Settles O23, by what the aggregate says. -/
theorem bcCapableAllIsTheAndOverRegisteredBoards : Obligations.BcCapableAllIsTheAndOverRegisteredBoards := by
  intro s
  refine ⟨fun hbusy => whenIdle_busy hbusy _, fun hidle => ?_⟩
  obtain ⟨hclosed, hopen⟩ := unlessClosed_checks (i := .bcCapableAll) (whenIdle_idle hidle _)
  exact ⟨hclosed, fun ho hall => s.bcAll_iff.2 hall ▸ hopen ho,
    fun ho b hp hb => State.bcAll_of_incapable hp hb ▸ hopen ho⟩

/-! ### Selecting the mode (R108) -/

/-- R108: what is left of `SET_PROTOCOL` in an open port, for an operand that names a mode. -/
theorem exec_setProtocol {s : State} {m : BitVec 2} {mode : Mode} (hidle : s.phase = .idle)
    (hm : modeOf m = some mode) : exec (.setProtocol m) s = unlessClosed s
      (if mode = .seqRw ∨ s.bcAll = true then answer { s with mode := mode } .ok else answer s .refusedProtocol) := by
  refine (whenIdle_idle hidle _).trans ?_
  rw [hm]

/-- R108: a mode is selected when it is `SEQ_RW` or all boards are capable. -/
theorem exec_setProtocol_selects {s : State} {m : BitVec 2} {mode : Mode} (hidle : s.phase = .idle)
    (ho : s.portState ≠ .closed) (hm : modeOf m = some mode) (hc : mode = .seqRw ∨ s.bcAll = true) :
    exec (.setProtocol m) s = .next { s with mode := mode, out := s.out ++ [.result .ok] } :=
  (exec_setProtocol hidle hm).trans ((unlessClosed_open ho _).trans (if_pos hc))

/-- R108: a broadcast mode is refused when a board is not capable. -/
theorem exec_setProtocol_refuses {s : State} {m : BitVec 2} {mode : Mode} (hidle : s.phase = .idle)
    (ho : s.portState ≠ .closed) (hm : modeOf m = some mode) (hmode : mode ≠ .seqRw) (hc : s.bcAll = false) :
    Answers (.setProtocol m) s .refusedProtocol :=
  (exec_setProtocol hidle hm).trans ((unlessClosed_open ho _).trans (if_neg (by simp [hmode, hc])))

theorem modeOf_isSome : ∀ m : BitVec 2, m ≠ 3 → (modeOf m).isSome = true := by decide

/-- Settles O24: each operand but 3 names a mode, and the aggregate decides on the broadcast ones. -/
theorem setProtocolKeepsTheCapabilityInvariant : Obligations.SetProtocolKeepsTheCapabilityInvariant := by
  intro s
  refine ⟨fun hbusy m => whenIdle_busy hbusy _, fun hidle => ⟨whenIdle_idle hidle _, fun m hm hclosed => ?_,
    fun ho => ⟨?_, fun hall => ?_, fun b hp hb => ?_⟩⟩⟩
  · obtain ⟨mode, hmode⟩ := Option.isSome_iff_exists.1 (modeOf_isSome m hm)
    exact (unlessClosed_checks (exec_setProtocol hidle hmode)).1 hclosed
  · exact exec_setProtocol_selects hidle ho rfl (.inl rfl)
  · have hc := s.bcAll_iff.2 hall
    exact ⟨exec_setProtocol_selects hidle ho rfl (.inr hc), exec_setProtocol_selects hidle ho rfl (.inr hc)⟩
  · have hc := State.bcAll_of_incapable hp hb
    exact ⟨exec_setProtocol_refuses hidle ho rfl (by decide) hc, exec_setProtocol_refuses hidle ho rfl (by decide) hc⟩

/-! ### The map a revalidation answer installs (R102 steps 1 and 2) -/

/-- R102: board `b` is registered and the answer gives it node `n`. -/
def State.claims (s : State) (m : RevalMap) (n : NodeId) (b : BoardId) : Bool :=
  (s.slot b).present && m[b] == some (BitVec.ofNat 8 n.val)

theorem State.claims_iff {s : State} {m : RevalMap} {n : NodeId} {b : BoardId} :
    s.claims m n b = true ↔ (s.slot b).present = true ∧ m[b] = some (BitVec.ofNat 8 n.val) := by
  simp [State.claims]

theorem NodesOnly.claims {s t : State} (h : NodesOnly s t) (m : RevalMap) (n : NodeId) :
    t.claims m n = s.claims m n := by
  funext b
  rw [State.claims, State.claims, h.present]

/-- The node the answer gives a board, if the number it gives is a node id. -/
theorem bind_nodeOf_eq_some {m : RevalMap} {b : BoardId} {n : NodeId} :
    m[b].bind nodeOf = some n ↔ m[b] = some (BitVec.ofNat 8 n.val) := by
  simp [Option.bind_eq_some_iff, nodeOf_eq_some_iff_eq]

/-- R102 step 2: a node that is free goes to the board that claims it; a node that is held stays. -/
theorem State.installOne_boardAt (m : RevalMap) (s : State) (b : BoardId) (n : NodeId) :
    (State.installOne m s b).boardAt n = (s.boardAt n).or (if s.claims m n b = true then some b else none) := by
  simp only [State.claims_iff, ← bind_nodeOf_eq_some]
  unfold State.installOne
  split
  · next k hp hk =>
    rw [hp, hk]
    by_cases hkn : n = k
    · subst hkn
      split
      · next hfree => simp [State.assign_boardAt, hfree]
      · next hheld => obtain ⟨c, hc⟩ := Option.ne_none_iff_exists'.1 hheld; simp [hc]
    · have hne : ¬ k = n := fun h => hkn h.symm
      split <;> simp [State.assign_boardAt, hkn, hne]
  · next hno =>
    have hclaim : ¬ ((s.slot b).present = true ∧ m[b].bind nodeOf = some n) := fun ⟨hp, hn⟩ => hno n hp hn
    rw [if_neg hclaim, Option.or_none]

/-- R102 step 2 over a list of boards: a free node goes to the first that claims it. -/
theorem State.installFold_boardAt (m : RevalMap) (l : List BoardId) (s : State) (n : NodeId) :
    (l.foldl (State.installOne m) s).boardAt n = (s.boardAt n).or (l.find? (s.claims m n)) := by
  induction l generalizing s with
  | nil => simp
  | cons b l ih =>
    rw [List.foldl_cons, ih, State.installOne_boardAt, (nodesOnly_installOne m s b).claims, List.find?_cons,
      Option.or_assoc]
    cases s.claims m n b <;> simp

theorem State.installMap_boardAt (s : State) (m : RevalMap) (n : NodeId) :
    (s.installMap m).boardAt n = (List.finRange 16).find? (s.claims m n) := by
  unfold State.installMap
  rw [State.installFold_boardAt, State.clearMap_boardAt, (nodesOnly_clearMap s).claims, Option.none_or]

/-- R102 step 2 for one board that has no node yet keeps the maps inverses. -/
theorem MapsInverse.installOne {s : State} (h : MapsInverse s) (m : RevalMap) {b : BoardId}
    (hb : (s.slot b).node = none) : MapsInverse (State.installOne m s b) := by
  unfold State.installOne
  split
  · split
    · next hn => exact h.assign hb hn
    · exact h
  · exact h

theorem State.installOne_slot_other (m : RevalMap) (s : State) {b c : BoardId} (hc : c ≠ b) :
    (State.installOne m s b).slot c = s.slot c := by
  unfold State.installOne
  split
  · split
    · rw [State.assign_slot, if_neg hc]
    · rfl
  · rfl

theorem MapsInverse.installFold (m : RevalMap) {l : List BoardId} (hl : l.Nodup) {s : State} (h : MapsInverse s)
    (hfree : ∀ b ∈ l, (s.slot b).node = none) : MapsInverse (l.foldl (State.installOne m) s) := by
  induction l generalizing s with
  | nil => exact h
  | cons b l ih =>
    obtain ⟨hbl, hl⟩ := List.nodup_cons.1 hl
    refine ih hl (h.installOne m (hfree b (by simp))) fun c hc => ?_
    rw [State.installOne_slot_other m s (by rintro rfl; exact hbl hc)]
    exact hfree c (by simp [hc])

/-- R102: whatever the maps were, the ones installed are inverses. -/
theorem mapsInverse_installMap (s : State) (m : RevalMap) : MapsInverse (s.installMap m) := by
  unfold State.installMap
  exact (mapsInverse_clearMap s).installFold m (List.nodup_finRange 16) fun b _ => by rw [State.clearMap_slot]

/-- Settles O25: a board is at a node where it is the lowest that claims it, and the maps are inverses. -/
theorem revalidationInstallsAnInjectiveMap : Obligations.RevalidationInstallsAnInjectiveMap := by
  intro s m
  refine ⟨fun b n => ?_, fun b n => (mapsInverse_installMap s m b n).symm,
    fun b => ⟨by simp, by simp, by simp⟩, State.installMap_tables s m⟩
  rw [mapsInverse_installMap s m b n, State.installMap_boardAt, ← Fin.find?_eq_find?_finRange, Fin.find?_eq_some_iff,
    State.claims_iff, and_assoc]
  simp only [State.claims_iff, ← Bool.not_eq_true, not_and, ne_eq]

/-! ### The command held behind the revalidation (R102 step 3) -/

theorem State.resume_unicast {p : Pending} {b : BoardId} (h : p.unicastBoard = some b) (s : State)
    (c : Config.Functions) : s.resume p c = .next (s.sendUnicast p b c) := by
  cases p with
  | rq | wq | rb | wb =>
    obtain rfl := Option.some.inj h
    rfl
  | bwq | bwb | brr | wbr | nfb | bfn => cases h

/-- Settles O26: the map installed differs from what it replaces in the two tables only, and the command resumes from
there. -/
theorem revalDoneResumesOrAsksAgain : Obligations.RevalDoneResumesOrAsksAgain := by
  intro s m f hp hf
  obtain ⟨slots, maps, htables⟩ :
      ∃ slots maps, s.installMap m = { s with slots := slots, node2board := maps } :=
    ⟨_, _, State.installMap_tables s m⟩
  have hexec : exec (.revalDone m) s = if s.staleMap = true
      then .next ({ s.installMap m with staleMap := false }.emit .revalidate)
      else (s.installMap m).resume f.cmd functions := inPhase_of hp hf _
  rw [htables] at hexec ⊢
  refine ⟨fun hstale => hexec.trans (if_pos hstale), fun hfresh => ?_⟩
  rw [if_neg (by simp [hfresh])] at hexec
  refine ⟨fun b hcmd => ?_, fun n hcmd => ?_, fun b hb => ?_⟩
  · rw [hcmd] at hexec
    exact hexec
  · rw [hcmd] at hexec
    exact hexec
  · rw [State.resume_unicast hb] at hexec
    refine ⟨fun hn => ?_, fun n hn => ?_⟩
    · rw [State.sendUnicast_unmapped hn] at hexec
      exact hexec
    · rw [State.sendUnicast_mapped hn] at hexec
      exact hexec

/-! ### Where the machine stops (R97, R75) -/

theorem continues_next (t : State) : Continues (.next t) := ⟨t, rfl⟩

section
variable {s : State} {k : StepOutcome} (h : Continues k)
include h

theorem continues_whenIdle : Continues (whenIdle s k) := by
  unfold whenIdle
  split
  · exact h
  · exact continues_next _

theorem continues_whenRegistered (b : BoardId) : Continues (whenRegistered s b k) := by
  unfold whenRegistered
  split
  · exact h
  · exact continues_next _

theorem continues_whenLength (l : Nat) : Continues (whenLength s l k) := by
  unfold whenLength
  split
  · exact h
  · exact continues_next _

theorem continues_whenAllowed (a : Bool) : Continues (whenAllowed s a k) := by
  unfold whenAllowed
  split
  · exact h
  · exact continues_next _

theorem continues_unlessClosed : Continues (unlessClosed s k) := by
  unfold unlessClosed
  split
  · exact continues_next _
  · exact h

theorem continues_whenOperational : Continues (whenOperational s k) := by
  unfold whenOperational
  split
  · exact h
  all_goals exact continues_next _

end

theorem continues_withBoard {s : State} {b : Byte} {k : BoardId → StepOutcome} (h : ∀ x, Continues (k x)) :
    Continues (withBoard s b k) := by
  unfold withBoard
  split
  · exact h _
  · exact continues_next _

theorem continues_withNode {s : State} {n : Byte} {k : NodeId → StepOutcome} (h : ∀ x, Continues (k x)) :
    Continues (withNode s n k) := by
  unfold withNode
  split
  · exact h _
  · exact continues_next _

/-- R96: a command on a board. -/
theorem continues_boardCommand {s : State} {b : Byte} {k : BoardId → StepOutcome} (h : ∀ x, Continues (k x)) :
    Continues (whenIdle s (withBoard s b k)) := continues_whenIdle (continues_withBoard h)

/-- R109: a unicast command. -/
theorem continues_unicastPrologue {s : State} {b : Byte} {k : BoardId → StepOutcome} (h : ∀ x, Continues (k x)) :
    Continues (unicastPrologue s b k) := continues_boardCommand fun x => continues_whenRegistered (h x) x

theorem continues_unicastGo (s : State) (p : Pending) (b : BoardId) (c : Config.Functions) :
    Continues (unicastGo s p b c) := continues_whenOperational (continues_next _)

/-- R97 (iv), U6: `ADD_BOARD` stops only with the count at its limit. -/
theorem exec_addBoard_stops (s : State) (b : Byte) (fw : Quadlet) (cap : Bool) :
    Continues (exec (.addBoard b fw cap) s) ∨ (exec (.addBoard b fw cap) s = .fault .countOverflow ∧
      s.numBoards = 0xFFFFFFFF ∧ s.phase = .idle ∧ s.portState ≠ .closed) := by
  obtain ⟨hbusy, hrest⟩ := addBoardRegistersAndCounts s b fw cap
  by_cases hidle : s.phase = .idle
  · obtain ⟨hrange, hboard⟩ := hrest hidle
    by_cases hb : 16 ≤ b.toNat
    · exact .inl ⟨_, hrange hb⟩
    · obtain ⟨hclosed, hfull, hroom⟩ := hboard ⟨b.toNat, Nat.lt_of_not_le hb⟩ rfl
      by_cases ho : s.portState = .closed
      · exact .inl ⟨_, hclosed ho⟩
      · by_cases hn : s.numBoards = 0xFFFFFFFF
        · exact .inr ⟨hfull ho hn, hn, hidle, ho⟩
        · exact .inl ⟨_, hroom ho hn⟩
  · exact .inl ⟨_, hbusy hidle⟩

/-- An event goes on when it does so with each record its phase can have. -/
theorem continues_inPhase {s : State} (hs : Inv s) {p : Phase} (hbusy : p ≠ .idle) {k : Inflight → StepOutcome}
    (h : ∀ f, p.fits (some f) = true → Continues (k f)) : Continues (inPhase s p k) := by
  obtain ⟨⟨_, _, _, hidle⟩, _, hseq⟩ := inv_iff.1 hs
  unfold inPhase
  split
  · next hp =>
    split
    · next f hf =>
      obtain ⟨-, hfits, -⟩ := hseq.inFlight hp hbusy hf
      exact h f hfits
    · next hf => exact absurd (hp.symm.trans (hidle.2 hf)) hbusy
  · exact continues_next _

theorem Inflight.eq_sent_of_isSent {f : Inflight} (h : f.isSent = true) : ∃ n l, f = Inflight.sent f.cmd n l := by
  obtain ⟨cmd, node, code, label, len⟩ := f
  simp only [Inflight.isSent, Bool.and_eq_true, beq_iff_eq, Option.isSome_iff_exists] at h
  obtain ⟨⟨⟨⟨n, rfl⟩, l, rfl⟩, rfl⟩, rfl⟩ := h
  exact ⟨n, l, rfl⟩

/-- R128: a command that sends has a meaning for the end of its `send`. -/
theorem continues_sent {f : Inflight} (h : f.cmd.sends = true) (s : State) : Continues (s.sent f) := by
  obtain ⟨cmd, node, code, label, len⟩ := f
  cases cmd with
  | rq | wq | rb | wb | bwq | bwb | brr => exact continues_next _
  | wbr | nfb | bfn => cases h

/-- R129, R126: a response is judged by the record of a unicast read or of `WAIT_BC_READ`. -/
theorem continues_judge {f : Inflight} (h : Phase.waitRecv.fits (some f) = true) (s : State) (rx : List Byte)
    (c : Config.Functions) : Continues (s.judge f rx c) := by
  simp only [Phase.fits, Bool.or_eq_true, Bool.and_eq_true, beq_iff_eq] at h
  obtain ⟨hreads, hsent⟩ | rfl := h
  · obtain ⟨n, l, hf⟩ := Inflight.eq_sent_of_isSent hsent
    rw [hf]
    cases hcmd : f.cmd with
    | rq | rb => exact continues_next _
    | wq | wb | bwq | bwb | brr | wbr | nfb | bfn => rw [hcmd] at hreads; cases hreads
  · exact continues_next _

/-- R101, R102: a command that makes a lookup can resume. -/
theorem continues_resume {p : Pending} (h : p.looksUp = true) (s : State) (c : Config.Functions) :
    Continues (s.resume p c) := by
  cases p with
  | rq | wq | rb | wb | nfb | bfn => exact continues_next _
  | bwq | bwb | brr | wbr => cases h

theorem continues_sendDone {s : State} (hs : Inv s) (r : SendOutcome) : Continues (exec (.sendDone r) s) := by
  refine continues_inPhase hs (by decide) fun f hfits => ?_
  cases r with
  | ok => exact continues_sent (Bool.and_eq_true_iff.1 hfits).1 s
  | fail => exact continues_next _

theorem continues_recvDone {s : State} (hs : Inv s) (r : RecvOutcome) : Continues (exec (.recvDone r) s) := by
  refine continues_inPhase hs (by decide) fun f hfits => ?_
  cases r with
  | bytes rx => exact continues_judge hfits s rx functions
  | timeout | fail => exact continues_next _

theorem continues_revalDone {s : State} (hs : Inv s) (m : RevalMap) : Continues (exec (.revalDone m) s) := by
  refine continues_inPhase hs (by decide) fun f hfits => ?_
  dsimp only
  split
  · exact continues_next _
  · exact continues_resume (Bool.and_eq_true_iff.1 hfits).1 _ _

/-- From a state of the invariant every instruction but `ADD_BOARD` has a next state. -/
theorem exec_continues {s : State} (hs : Inv s) {i : Instr} (hi : ∀ b fw cap, i ≠ .addBoard b fw cap) :
    Continues (exec i s) := by
  cases i with
  | qwrite | bwrite | qread | bread | qresp | bresp => exact continues_next _
  | init r =>
    refine continues_whenIdle ?_
    split <;> exact continues_next _
  | shutdown | getStatus | getTiming => exact continues_whenIdle (continues_next _)
  | setTimeout | setNoForward | bcCapableAll => exact continues_whenIdle (continues_unlessClosed (continues_next _))
  | setProtocol m =>
    refine continues_whenIdle ?_
    split
    · exact continues_next _
    · refine continues_unlessClosed ?_
      split <;> exact continues_next _
  | addBoard b fw cap => exact absurd rfl (hi b fw cap)
  | removeBoard | unmapNode | fwVersion =>
    exact continues_boardCommand fun x => continues_whenRegistered (continues_unlessClosed (continues_next _)) x
  | mapNode =>
    exact continues_boardCommand fun x =>
      continues_whenRegistered (continues_withNode fun _ => continues_unlessClosed (continues_next _)) x
  | boardExists | nodeForBoard => exact continues_boardCommand fun _ => continues_unlessClosed (continues_next _)
  | boardForNode n =>
    refine continues_whenIdle (continues_unlessClosed ?_)
    split <;> exact continues_next _
  | readQuadlet | writeQuadlet => exact continues_unicastPrologue fun _ => continues_unicastGo ..
  | readBlock | writeBlock =>
    exact continues_unicastPrologue fun _ => continues_whenLength (continues_unicastGo ..) _
  | writeBcQuadlet | writeBcReadRequest | waitBcRead =>
    exact continues_whenIdle (continues_whenAllowed (continues_whenOperational (continues_next _)) _)
  | writeBcBlock =>
    exact continues_whenIdle
      (continues_whenAllowed (continues_whenLength (continues_whenOperational (continues_next _)) _) _)
  | sendDone r => exact continues_sendDone hs r
  | recvDone r => exact continues_recvDone hs r
  | revalDone m => exact continues_revalDone hs m
  | busReset g =>
    dsimp only [exec, execBusReset]
    split <;> exact continues_next _

/-- What an instruction answers from a state of the invariant. -/
theorem exec_stops {s : State} (hs : Inv s) (i : Instr) :
    Continues (exec i s) ∨ (exec i s = .fault .countOverflow ∧ s.numBoards = 0xFFFFFFFF ∧ s.phase = .idle ∧
      s.portState ≠ .closed ∧ ∃ b fw cap, i = .addBoard b fw cap) := by
  by_cases hi : ∃ b fw cap, i = .addBoard b fw cap
  · obtain ⟨b, fw, cap, rfl⟩ := hi
    obtain h | ⟨hfault, hfull, hidle, ho⟩ := exec_addBoard_stops s b fw cap
    · exact .inl h
    · exact .inr ⟨hfault, hfull, hidle, ho, b, fw, cap, rfl⟩
  · exact .inl (exec_continues hs fun b fw cap h => hi ⟨b, fw, cap, h⟩)

/-- What a step answers from a state of the invariant: a next state, the fault of U6 or the refusal of U15. -/
theorem step_stops {s : State} (hs : Inv s) :
    Continues (step s) ∨
    (step s = .fault .countOverflow ∧ s.numBoards = 0xFFFFFFFF ∧ s.phase = .idle ∧ s.portState ≠ .closed ∧
      ∃ bytes rest b fw cap, s.input = .message .cmd bytes :: rest ∧
        decode .cmd bytes = .ok (.addBoard b fw cap)) ∨
    ∃ port bytes rest e, s.input = .message port bytes :: rest ∧ port ≠ .codec ∧ decode port bytes = .error e ∧
      step s = .refused (.undecodable e) := by
  cases hin : s.input with
  | nil => exact .inl ⟨s, step_nil hin⟩
  | cons p rest =>
    rw [step_cons hin]
    cases p with
    | reset => exact .inl (continues_next _)
    | message port bytes =>
      cases hdec : decode port bytes with
      | ok i =>
        rw [take_decoded hdec]
        obtain h | ⟨hfault, hfull, hidle, ho, b, fw, cap, rfl⟩ := exec_stops (s := { s with input := rest }) hs i
        · exact .inl h
        · obtain rfl : Port.cmd = port := port_of_decode hdec
          exact .inr (.inl ⟨hfault, hfull, hidle, ho, bytes, rest, b, fw, cap, rfl, hdec⟩)
      | error e =>
        rw [take_undecoded hdec]
        cases port with
        | codec => exact .inl (continues_next _)
        | cmd | event => exact .inr (.inr ⟨_, bytes, rest, e, rfl, by decide, hdec, rfl⟩)

/-- Settles O49: an outcome is one of the three a step can have. -/
theorem theMachineStopsOnlyWhereTheSpecDoes : Obligations.TheMachineStopsOnlyWhereTheSpecDoes := by
  intro s hs
  obtain ⟨t, h⟩ | ⟨h, hwhere⟩ | ⟨port, bytes, rest, e, hin, hport, hdec, h⟩ := step_stops hs
  · exact ⟨fun r hr => (nomatch h.symm.trans hr), fun r hr => (nomatch h.symm.trans hr)⟩
  · refine ⟨fun r hr => ⟨?_, hwhere⟩, fun r hr => (nomatch h.symm.trans hr)⟩
    exact (Host.Outcome.fault.inj (h.symm.trans hr)).symm
  · refine ⟨fun r hr => (nomatch h.symm.trans hr), fun r hr => ⟨port, bytes, rest, e, hin, hport, hdec, ?_⟩⟩
    exact (Host.Outcome.refused.inj (h.symm.trans hr)).symm

end Sys2Proof.Machine

/-! ## The sequencer: the commands that touch the transport, the events and the judging of responses (O27 to O29, O32,
O35 to O44, O55 to O57, O60) -/

namespace Sys2Proof.Machine

/-! ### Life cycle and configuration (R112 to R117) -/

/-- Settles O27, port state by port state. -/
theorem initFollowsThePortState : Obligations.InitFollowsThePortState := by
  intro s r
  refine ⟨fun hbusy => whenIdle_busy hbusy _, fun hidle => ?_⟩
  have hexec (r : Bool) : exec (.init r) s = _ := whenIdle_idle hidle _
  -- Named by its hypothesis, the port state selects the branch of R112.
  refine ⟨fun hs => ?_, fun hs => ?_, fun hs => ?_, fun hs => ⟨?_, ?_⟩⟩ <;>
    · rw [hs] at hexec
      exact hexec _

/-- Settles O28: `SHUTDOWN` has no test of the port state, the two others have that of `Closed` alone. -/
theorem shutdownAndConfigurationWrites : Obligations.ShutdownAndConfigurationWrites := by
  intro s d f
  refine ⟨fun hbusy => ⟨whenIdle_busy hbusy _, whenIdle_busy hbusy _, whenIdle_busy hbusy _⟩, fun hidle => ?_⟩
  obtain ⟨hclosedD, hopenD⟩ := unlessClosed_checks (i := .setTimeout d) (whenIdle_idle hidle _)
  obtain ⟨hclosedF, hopenF⟩ := unlessClosed_checks (i := .setNoForward f) (whenIdle_idle hidle _)
  exact ⟨whenIdle_idle hidle _, fun hs => ⟨hclosedD hs, hclosedF hs⟩, fun hs => ⟨hopenD hs, hopenF hs⟩⟩

/-- Settles O29: the read-outs have no test but that of the phase. -/
theorem statusAndTimingReadOut : Obligations.StatusAndTimingReadOut := fun _ =>
  ⟨fun hbusy => ⟨whenIdle_busy hbusy _, whenIdle_busy hbusy _⟩,
    fun hidle => ⟨whenIdle_idle hidle _, whenIdle_idle hidle _⟩, rfl, rfl⟩

/-! ### The frames that go out (R118 to R126) -/

/-- Settles O32: each of the four commands sends the request of its record. -/
theorem unicastSendsItsFrame : Obligations.UnicastSendsItsFrame := by
  intro s b bid n a hb hidle ho hfresh hpres hn
  have hsend {i : Instr} {p : Pending} {len : Option Nat} (hi : i.unicast = some (b, len))
      (hp : i.pending bid = some p) (hlen : ∀ l, len = some l → 0 < l ∧ l % 4 = 0 ∧ l ≤ 65532) :
      exec i s = .next (s.sendRequest p (nodeNum n) functions) :=
    exec_unicast_mapped hi hb hp hidle hpres hlen ho hfresh hn
  refine ⟨hsend rfl rfl (by simp), fun v => hsend rfl rfl (by simp), fun len hpos hmod hmax => ?_,
    fun data hpos hmod hmax => hsend rfl rfl (by simp [hpos, hmod, hmax])⟩
  rw [BitVec.ofNat_toNat]
  exact hsend rfl rfl (by simp [hpos, hmod, hmax])

/-- Settles O35: behind the checks of R110 each command sends its request at once, whatever the tables hold. -/
theorem broadcastSendsItsFrame : Obligations.BroadcastSendsItsFrame := by
  intro s a hidle ho
  have hwrite (hm : s.mode ≠ .seqRw) : s.mode.allowsBcWrite = true := by
    cases h : s.mode <;> simp_all [Mode.allowsBcWrite]
  have hread (hm : s.mode = .bcQrw) : s.mode.allowsBcRead = true := by rw [hm]; rfl
  have hpass {allowed : Bool} (ha : allowed = true) (k : StepOutcome) :
      whenIdle s (whenAllowed s allowed k) = k := by rw [whenIdle_idle hidle, whenAllowed_of ha]
  refine ⟨fun hm v => ?_, fun hm data hpos hmod hmax => ?_, fun hm seq => ?_, fun hm => ?_⟩
  · exact (hpass (hwrite hm) _).trans (whenOperational_of ho _)
  · exact (hpass (hwrite hm) _).trans ((whenLength_of ⟨hpos, hmod, hmax⟩ s _).trans (whenOperational_of ho _))
  · exact (hpass (hread hm) _).trans (whenOperational_of ho _)
  · exact (hpass (hread hm) _).trans (whenOperational_of ho _)

/-! ### The events, but for a response (R128, R129, R134, R135) -/

/-- R128: after a successful `send` a write ends. -/
theorem exec_sendDone_write {s : State} {f : Inflight} (hp : s.phase = .waitSend) (hf : s.inflight = some f)
    (hop : f.cmd.op ∈ [Op.wq, .wb, .bwq, .bwb, .brr]) : exec (.sendDone .ok) s = .next (s.finish .ok) := by
  have hsent : s.sent f = .next (s.finish .ok) := by
    unfold State.sent
    cases hc : f.cmd with
    | wq | wb | bwq | bwb | brr => rfl
    | _ => simp [hc, Pending.op] at hop
  exact (inPhase_of hp hf _).trans hsent

/-- Settles O36, by what the command in flight is. -/
theorem sendDoneEndsWritesAndAwaitsReads : Obligations.SendDoneEndsWritesAndAwaitsReads := fun _ _ hp hf =>
  ⟨inPhase_of hp hf _, fun hop => exec_sendDone_write hp hf hop,
    fun hop => exec_sendDone_read hp hf (by simpa using hop)⟩

/-- R129, R144: a timeout ends the command in flight. -/
theorem exec_recvDone_timeout {s : State} {f : Inflight} (hp : s.phase = .waitRecv) (hf : s.inflight = some f) :
    exec (.recvDone .timeout) s = .next (s.fail f .timeout .timeoutError) := inPhase_of hp hf _

/-- Settles O37: with a command in flight each of the two outcomes is its failure. -/
theorem receiveTimeoutAndFailure : Obligations.ReceiveTimeoutAndFailure := fun _ _ hp hf =>
  ⟨exec_recvDone_timeout hp hf, inPhase_of hp hf _⟩

/-- Settles O43: the generation is the low byte of the operand. -/
theorem busResetMarksTheMapStale : Obligations.BusResetMarksTheMapStale := by
  intro s g
  have hgen : BitVec.ofNat 8 (g.toNat % 256) = g.setWidth 8 := by
    apply BitVec.eq_of_toNat_eq
    simp
  rw [hgen]
  exact ⟨fun hc => if_pos hc, fun ho => if_neg ho⟩

/-- R135: an event outside the phase that awaits it is ignored. -/
theorem inPhase_other {s : State} {p : Phase} (hp : s.phase ≠ p) (k : Inflight → StepOutcome) :
    inPhase s p k = .next s := if_neg hp

/-- Settles O44: each of the three events has that test of the phase before all it does. -/
theorem eventsInTheWrongPhaseAreIgnored : Obligations.EventsInTheWrongPhaseAreIgnored :=
  ⟨fun _ _ hp => inPhase_other hp _, fun _ _ hp => inPhase_other hp _, fun _ _ hp => inPhase_other hp _⟩

/-! ### The capability update (R133) -/

theorem State.capUpdateAllWith_envDraw (s : State) (draw : BoardId → Config.CapDraw) :
    s.capUpdateAllWith .envDraw draw =
      { s with slots := (s.capUpdateAllWith .envDraw draw).slots, drawCount := s.drawCount + 1 } := by
  show State.countDraw _ = _
  rw [State.drawFold_tables]
  rfl

/-- Settles O42: each slot's flag follows its own draw, and the fold over the boards writes no register but the slots. -/
theorem capabilityUpdateFollowsTheDraw : Obligations.CapabilityUpdateFollowsTheDraw := fun s b c draw =>
  ⟨State.drawCap_slot s (draw b) b c, State.capUpdateAllWith_slot s draw c, rfl,
    State.capUpdateAllWith_envDraw s draw, rfl, rfl⟩

/-! ### The judging of a response (R130, R131) -/

/-- R130, R131 steps 1 to 4, which the two rules share: `verdict` is their step 2, `accept` what they do with the frame
of a response that passed. -/
def State.judgeWith (s : State) (f : Inflight) (verdict : List Byte → Verdict) (accept : List Byte → State → State)
    (rx : List Byte) : State :=
  match ethSplit rx with
  | none => s.fail f .lengthMismatch .frameValidationFailure
  | some (fr, tr) =>
    match (verdict fr).reason with
    | some reason => s.fail f reason .frameValidationFailure
    | none =>
      if byteAt tr 1 ≠ s.busGen then (s.acceptTrailer tr).resync f (byteAt tr 1) else accept fr (s.acceptTrailer tr)

section
variable {s : State} {f : Inflight} {verdict : List Byte → Verdict} {accept : List Byte → State → State}
  {rx fr tr : List Byte}

theorem judgeWith_short (h : rx.length < 8) :
    s.judgeWith f verdict accept rx = s.fail f .lengthMismatch .frameValidationFailure := by
  simp [State.judgeWith, ethSplit, h]

theorem judgeWith_rejects (htr : tr.length = 8) {reason : Reason} (hv : (verdict fr).reason = some reason) :
    s.judgeWith f verdict accept (fr ++ tr) = s.fail f reason .frameValidationFailure := by
  simp [State.judgeWith, ethSplit_append htr, hv]

theorem judgeWith_resyncs (htr : tr.length = 8) (hv : verdict fr = .valid) (hg : byteAt tr 1 ≠ s.busGen) :
    s.judgeWith f verdict accept (fr ++ tr) = (s.acceptTrailer tr).resync f (byteAt tr 1) := by
  simp [State.judgeWith, ethSplit_append htr, hv, Verdict.reason, hg]

theorem judgeWith_accepts (htr : tr.length = 8) (hv : verdict fr = .valid) (hg : byteAt tr 1 = s.busGen) :
    s.judgeWith f verdict accept (fr ++ tr) = accept fr (s.acceptTrailer tr) := by
  simp [State.judgeWith, ethSplit_append htr, hv, Verdict.reason, hg]

end

/-- R130 step 6: the result of a unicast read, from the frame of its response. -/
def Pending.delivered (p : Pending) (len : Nat) (fr : List Byte) : Result :=
  if p.op = .rq then .okQuadlet (quadAt fr 3) else .okBytes (slice fr 20 (20 + len))

/-- R130: how the response to a unicast read is judged. -/
theorem judge_read {f : Inflight} {b : BoardId} {n : NodeNum} {code : BitVec 4} {l : Label} {len : Nat}
    (hr : f.cmd.reads = true) (hb : f.cmd.unicastBoard = some b) (hn : f.node = some n) (hc : f.expTcode = some code)
    (hl : f.expTl = some l) (hlen : f.expLen = some len) (s : State) (rx : List Byte) :
    s.judge f rx functions = .next (s.judgeWith f (fun fr => validateResponse fr n code l len)
      (fun fr u => (u.capUpdate b).finish (f.cmd.delivered len fr)) rx) := by
  obtain ⟨cmd, node, expTcode, expTl, expLen⟩ := f
  subst hn hc hl hlen
  cases cmd with
  | rq | rb =>
    obtain rfl := Option.some.inj hb
    rfl
  | _ => cases hr

/-- A slice, by its start and its length. -/
theorem slice_add (b : List Byte) (i n : Nat) : slice b i (i + n) = (b.drop i).take n := by
  simp [slice]

/-- R131 steps 5 to 7: what becomes of an aggregated response of the right generation. -/
def State.acceptPayload (u : State) (f : Inflight) (payload : List Byte) : State :=
  if bcSeqOf payload ≠ some u.bcSeq then u.fail f .seqMismatch .frameValidationFailure
  else u.capUpdateAll.finish (.okBytes payload)

/-- R131: how the response to `WAIT_BC_READ` is judged. -/
theorem judge_wbr {f : Inflight} (hw : f.cmd = .wbr) (s : State) (rx : List Byte) :
    s.judge f rx functions = .next (s.judgeWith f (fun fr => validateBroadcast fr)
      (fun fr u => u.acceptPayload f ((fr.drop 20).take (q3Length (quadAt fr 3)).toNat)) rx) := by
  obtain ⟨cmd, node, expTcode, expTl, expLen⟩ := f
  subst hw
  simp only [← slice_add]
  rfl

/-- R130, R131 step 2: `v` is the verdict on the frame of a response to the command in flight. -/
def Inflight.Finds (f : Inflight) (fr : List Byte) (v : Verdict) : Prop :=
  (f.cmd = .wbr ∧ validateBroadcast fr = v) ∨
  (∃ node tcode label len, f.node = some node ∧ f.expTcode = some tcode ∧ f.expTl = some label ∧
    f.expLen = some len ∧ validateResponse fr node tcode label len = v)

/-- R118, R120: a unicast read has a board, and says what its response must be. -/
theorem Pending.expects_of_reads {p : Pending} (h : p.reads = true) :
    ∃ b code len, p.unicastBoard = some b ∧ p.expTcode = some code ∧ p.expLen = some len := by
  cases p with
  | rq | rb => exact ⟨_, _, _, rfl, rfl, rfl⟩
  | _ => cases h

/-- In the wait for a response every record is judged, by the verdict it finds. -/
theorem judge_of_fits {f : Inflight} (h : Phase.waitRecv.fits (some f) = true) :
    ∃ (verdict : List Byte → Verdict) (accept : List Byte → State → State),
      (∀ fr v, f.Finds fr v → verdict fr = v) ∧
      ∀ (s : State) (rx : List Byte), s.judge f rx functions = .next (s.judgeWith f verdict accept rx) := by
  simp only [Phase.fits, Bool.or_eq_true, Bool.and_eq_true, beq_iff_eq] at h
  obtain ⟨hreads, hsent⟩ | rfl := h
  · obtain ⟨n, l, hf⟩ := Inflight.eq_sent_of_isSent hsent
    obtain ⟨b, code, len, hb, hcode, hlen⟩ := Pending.expects_of_reads hreads
    have hn : f.node = some n := congrArg Inflight.node hf
    have hl : f.expTl = some l := congrArg Inflight.expTl hf
    replace hcode : f.expTcode = some code := (congrArg Inflight.expTcode hf).trans hcode
    replace hlen : f.expLen = some len := (congrArg Inflight.expLen hf).trans hlen
    refine ⟨_, _, ?_, judge_read hreads hb hn hcode hl hlen⟩
    rintro fr v (⟨hw, -⟩ | ⟨_, _, _, _, hn', hcode', hl', hlen', hv⟩)
    · rw [hw] at hreads
      cases hreads
    · cases hn.symm.trans hn'
      cases hcode.symm.trans hcode'
      cases hl.symm.trans hl'
      cases hlen.symm.trans hlen'
      exact hv
  · refine ⟨_, _, ?_, judge_wbr rfl⟩
    rintro fr v (⟨-, hv⟩ | ⟨_, _, _, _, hn, -⟩)
    · exact hv
    · cases hn

section
variable {s : State} {f : Inflight} (hp : s.phase = .waitRecv) (hf : s.inflight = some f)
include hp hf

theorem exec_recvDone_bytes (rx : List Byte) : exec (.recvDone (.bytes rx)) s = s.judge f rx functions :=
  inPhase_of hp hf _

variable (hfits : s.phase.fits s.inflight = true)
include hfits

/-- R130, R131 step 1: bytes too short to split. -/
theorem exec_recvDone_short {rx : List Byte} (h : rx.length < 8) :
    exec (.recvDone (.bytes rx)) s = .next (s.fail f .lengthMismatch .frameValidationFailure) := by
  obtain ⟨_, _, -, hjudge⟩ := judge_of_fits (hp ▸ hf ▸ hfits)
  rw [exec_recvDone_bytes hp hf, hjudge, judgeWith_short h]

variable {fr tr : List Byte} (htr : tr.length = 8)
include htr

/-- R130, R131 step 2: a frame that does not validate. -/
theorem exec_recvDone_rejected {v : Verdict} {reason : Reason} (hv : f.Finds fr v) (hr : v.reason = some reason) :
    exec (.recvDone (.bytes (fr ++ tr))) s = .next (s.fail f reason .frameValidationFailure) := by
  obtain ⟨_, _, hverdict, hjudge⟩ := judge_of_fits (hp ▸ hf ▸ hfits)
  rw [exec_recvDone_bytes hp hf, hjudge, judgeWith_rejects htr (by rw [hverdict fr v hv, hr])]

/-- R130, R131 step 4: a validated response of another generation. -/
theorem exec_recvDone_resynced (hv : f.Finds fr .valid) (hg : byteAt tr 1 ≠ s.busGen) :
    exec (.recvDone (.bytes (fr ++ tr))) s = .next ((s.acceptTrailer tr).resync f (byteAt tr 1)) := by
  obtain ⟨_, _, hverdict, hjudge⟩ := judge_of_fits (hp ▸ hf ▸ hfits)
  rw [exec_recvDone_bytes hp hf, hjudge, judgeWith_resyncs htr (hverdict fr _ hv) hg]

end

/-- Settles O38: the two ways to be rejected, before and in the validation. -/
theorem rejectedResponsesChangeNothing : Obligations.RejectedResponsesChangeNothing := by
  intro s f rx verdict reason hp hf hfits hmem h
  obtain ⟨hshort, rfl⟩ | ⟨fr, tr, rfl, htr, hv⟩ := h
  · exact exec_recvDone_short hp hf hfits hshort
  · have hreason : verdict.reason = some reason := by
      simp only [List.mem_cons, Prod.mk.injEq, List.not_mem_nil, or_false] at hmem
      obtain ⟨rfl, rfl⟩ | ⟨rfl, rfl⟩ | ⟨rfl, rfl⟩ | ⟨rfl, rfl⟩ | ⟨rfl, rfl⟩ := hmem <;> rfl
    exact exec_recvDone_rejected hp hf hfits htr hv hreason

/-- Settles O39: the record in flight fits the wait, so its verdict decides. -/
theorem generationMismatchDiscardsTheData : Obligations.GenerationMismatchDiscardsTheData :=
  fun _ _ _ _ _ _ _ _ _ _ _ hp hf hfits hg hv => exec_recvDone_resynced hp hf hfits rfl hv hg

/-- Settles O40: the flag of the board is the one drawn for it. -/
theorem validResponseDeliversTheData : Obligations.ValidResponseDeliversTheData := by
  intro s f bid node tcode label len fr t0 t2 t3 t4 t5 t6 t7 hp hf hn hc hl hlen hv hcmd
  obtain ⟨hr, hb⟩ : f.cmd.reads = true ∧ f.cmd.unicastBoard = some bid := by
    obtain ⟨a, h⟩ | ⟨a, l, h⟩ := hcmd <;> rw [h] <;> exact ⟨rfl, rfl⟩
  refine ⟨drawn (Config.capDraw s.drawCount bid) (s.slot bid).bcCapable, ?_⟩
  rw [exec_recvDone_bytes hp hf, judge_read hr hb hn hc hl hlen, judgeWith_accepts rfl hv rfl, Pending.delivered,
    slice_add]
  rfl

/-- R127, R131 step 2: the payload of a validated aggregated response is long enough to have a sequence tag. -/
theorem bcSeqOf_payload {fr : List Byte} (hv : validateBroadcast fr = .valid) :
    bcSeqOf ((fr.drop 20).take (q3Length (quadAt fr 3)).toNat) =
      some ((quadAt ((fr.drop 20).take (q3Length (quadAt fr 3)).toNat) 0).extractLsb' 16 16) := by
  rw [validateBroadcast_eq_firstFailing] at hv
  obtain ⟨⟨-, hlen, hpos, hmod⟩, -, -⟩ := (firstFailing_unaddressed_iff ..).2.2.2.1.1 hv
  refine if_pos ?_
  rw [List.length_take, List.length_drop]
  omega

/-- Settles O41, by the sequence tag of the payload. -/
theorem broadcastResponseNeedsTheSequenceTag : Obligations.BroadcastResponseNeedsTheSequenceTag := by
  intro s f fr t0 t2 t3 t4 t5 t6 t7 hp hf hw hv payload i
  have htag : bcSeqOf payload = some ((quadAt payload 0).extractLsb' 16 16) := bcSeqOf_payload hv
  have hexec : exec i s =
      .next ((s.acceptTrailer [t0, s.busGen, t2, t3, t4, t5, t6, t7]).acceptPayload f payload) := by
    rw [exec_recvDone_bytes hp hf, judge_wbr hw, judgeWith_accepts rfl hv rfl]
  rw [State.acceptPayload, htag] at hexec
  refine ⟨fun hne => ?_, fun heq => ?_⟩
  · have hentry : f.entry .seqMismatch = { reason := .seqMismatch, op := .wbr, board := none, tl := f.expTl } := by
      rw [Inflight.entry, hw]
      rfl
    rw [if_pos (by simpa using hne), State.fail, hentry] at hexec
    exact hexec
  · rw [if_neg (by simpa using heq)] at hexec
    have hslot := State.capUpdateAll_slot (s.acceptTrailer [t0, s.busGen, t2, t3, t4, t5, t6, t7])
    obtain ⟨slots, hcap⟩ : ∃ slots, (s.acceptTrailer [t0, s.busGen, t2, t3, t4, t5, t6, t7]).capUpdateAll =
        { s.acceptTrailer [t0, s.busGen, t2, t3, t4, t5, t6, t7] with
          slots := slots, drawCount := s.drawCount + 1 } := ⟨_, State.capUpdateAll_eq _⟩
    rw [hcap] at hexec hslot
    refine ⟨_, hexec, fun b => ?_, rfl⟩
    rw [State.finish_slot, hslot, State.acceptTrailer_slot]
    split
    · next hpres => exact ⟨_, rfl, by simp [hpres]⟩
    · exact ⟨_, rfl, fun _ => rfl⟩

/-! ### Waiting for a response, and the data it brings (R129, R152, R153, R170) -/

/-- R130, R131: `i` is a response that passed every check in the wait for it. -/
def CheckedResponse (s : State) (i : Instr) : Prop :=
  ∃ f fr tr, i = .recvDone (.bytes (fr ++ tr)) ∧ tr.length = 8 ∧ s.phase = .waitRecv ∧ s.inflight = some f ∧
    byteAt tr 1 = s.busGen ∧
    ((f.cmd = .wbr ∧ validateBroadcast fr = .valid ∧
        bcSeqOf ((fr.drop 20).take (q3Length (quadAt fr 3)).toNat) = some s.bcSeq) ∨
      (f.cmd.reads = true ∧ ∃ node tcode label len, f.node = some node ∧ f.expTcode = some tcode ∧
        f.expTl = some label ∧ f.expLen = some len ∧ validateResponse fr node tcode label len = .valid))

/-- R126, R128: `i` begins a wait for a response. -/
def BeginsWait (s : State) (i : Instr) : Prop :=
  (i = .sendDone .ok ∧ s.phase = .waitSend ∧ ∃ f, s.inflight = some f ∧ f.cmd.reads = true) ∨
  (i = .waitBcRead ∧ s.phase = .idle)

/-- What the instruction `i` puts out, as far as responses go. -/
inductive Exchanges (s : State) (i : Instr) (t : State) : Prop where
  /-- It neither asks for a response nor delivers one's data. -/
  | silent (os : List Output) : t.out = s.out ++ os → os.countP Output.isReceive = 0 →
      os.countP Output.carriesData = 0 → Exchanges s i t
  /-- It asks for one. -/
  | asks (d : Duration) : t.out = s.out ++ [.receive d] → BeginsWait s i → Exchanges s i t
  /-- It ends a command with one's data. -/
  | delivers (r : Result) : t.out = s.out ++ [.result r] → CheckedResponse s i → Exchanges s i t

section
variable {s u : State} {i : Instr} (hout : u.out = s.out)
include hout

theorem Exchanges.result {r : Result} (hr : (Output.result r).carriesData = false) : Exchanges s i (u.result r) :=
  .silent [.result r] (by simp [hout]) rfl (by simp [hr])

theorem Exchanges.finish {r : Result} (hr : (Output.result r).carriesData = false) : Exchanges s i (u.finish r) :=
  .silent [.result r] (by simp [hout]) rfl (by simp [hr])

theorem Exchanges.fail (f : Inflight) (reason : Reason) {r : Result} (hr : (Output.result r).carriesData = false) :
    Exchanges s i (u.fail f reason r) :=
  have hdiag (e : LogEntry) : (Output.diag e).carriesData = false := rfl
  .silent [.diag (f.entry reason), .result r] (by simp [hout]) rfl (by simp [hr, hdiag])

theorem Exchanges.revalidate : Exchanges s i (u.emit .revalidate) := .silent [.revalidate] (by simp [hout]) rfl rfl

theorem Exchanges.sendRequest (p : Pending) (n : NodeNum) (c : Config.Functions) :
    Exchanges s i (u.sendRequest p n c) :=
  .silent [.send (ethWrap u.noForward u.busGen (p.frame n u.tl u.inUseMask c))] (congrArg (· ++ _) hout) rfl rfl

theorem Exchanges.sendUnicast (p : Pending) (b : BoardId) (c : Config.Functions) :
    Exchanges s i (u.sendUnicast p b c) := by
  cases hn : (u.slot b).node with
  | none =>
    rw [State.sendUnicast_unmapped hn]
    exact .silent [.diag { reason := .noNode, op := p.op, board := some b, tl := some u.tl }, .result .notFound]
      (by simp [hout]) rfl rfl
  | some n =>
    rw [State.sendUnicast_mapped hn]
    exact .sendRequest hout p _ c

end

/-- What every next state of an instruction has put out, as far as responses go. -/
theorem Effect.exchanges {s t : State} {i : Instr} (h : Effect functions s i t) : Exchanges s i t := by
  cases h with
  | busy => exact .result rfl rfl
  | answered _ _ hr => exact .result rfl hr
  | inited | closed | timeoutSet | noForwardSet | modeSet | added | removed | mapped | unmapped =>
    exact .result (by simp) rfl
  | held => exact .revalidate rfl
  | askedAgain => exact .revalidate (by simp)
  | broadcast | bcReadRequested => exact .sendRequest (by simp) ..
  | unicast => exact .sendUnicast rfl ..
  | unicastResumed => exact .sendUnicast (by simp) ..
  | sendFailed | timedOut | receiveFailed | rejected | resynced | wrongSequence => exact .fail (by simp) _ _ rfl
  | nodeAnswered | boardAnswered | writeSent => exact .finish rfl rfl
  | nodeResumed | boardResumed => exact .finish (by simp) rfl
  | codec r => exact .silent [.codec r] rfl rfl rfl
  | ignored | busReset => exact .silent [] (by simp) rfl rfl
  | readSent f hp hf hr => exact .asks s.rxTimeout rfl (.inl ⟨rfl, hp, f, hf, hr⟩)
  | bcReadAwaited hp => exact .asks s.rxTimeout rfl (.inr ⟨rfl, hp⟩)
  | delivered f fr tr b n code l len r hp hf htr hg hr _ hn hc hl hlen hv =>
    exact .delivers r (by simp)
      ⟨f, fr, tr, rfl, htr, hp, hf, hg, .inr ⟨hr, n, code, l, len, hn, hc, hl, hlen, hv⟩⟩
  | deliveredAll f fr tr payload hp hf htr hg hw hv hpayload htag =>
    exact .delivers (.okBytes payload) (by simp)
      ⟨f, fr, tr, rfl, htr, hp, hf, hg, .inl ⟨hw, hv, hpayload ▸ htag⟩⟩

/-- R153: `receive` is called once, and only where a wait begins. -/
theorem exec_receives {s t : State} {i : Instr} (h : exec i s = .next t)
    (hne : t.out.countP Output.isReceive ≠ s.out.countP Output.isReceive) :
    t.out.countP Output.isReceive = s.out.countP Output.isReceive + 1 ∧ BeginsWait s i := by
  cases (exec_effect h).exchanges with
  | silent os ho hr _ => exact absurd (by simp [ho, hr]) hne
  | asks d ho hw => exact ⟨by simp [ho, Output.isReceive], hw⟩
  | delivers r ho _ => exact absurd (by simp [ho, Output.isReceive]) hne

/-- R129: in the wait for a response every outcome of `receive` ends the command. -/
theorem Effect.idle_of_recvDone {c : Config.Functions} {s t : State} {r : RecvOutcome}
    (h : Effect c s (.recvDone r) t) (hp : s.phase = .waitRecv) : t.phase = .idle ∧ t.inflight = none := by
  cases h with
  | ignored _ _ hother => exact absurd hp (hother r rfl)
  | timedOut | receiveFailed | rejected | resynced | wrongSequence | delivered | deliveredAll => exact ⟨rfl, rfl⟩
  -- The other next states are of commands and of frames.
  | busy hport | answered hport | held _ hport | unicast _ _ hport | broadcast _ hport | codec _ hport => cases hport

/-- Settles O55: ended in `IDLE`, a command has sent nothing, and no wait begins with an outcome of `receive`. -/
theorem noRetry : Obligations.NoRetry := by
  refine ⟨fun i s t h => exec_receives h, fun r s t h hp => ?_⟩
  obtain ⟨hidle, hnone⟩ := (exec_effect h).idle_of_recvDone hp
  refine ⟨hidle, hnone, ?_, ?_⟩
  · obtain ⟨hsend, -⟩ | ⟨-, -, hsending⟩ := oneLabelPerFrame _ s t h
    · exact hsend
    · exact absurd (hidle.symm.trans hsending) (by decide)
  · by_contra hne
    obtain ⟨hi, -⟩ | ⟨hi, -⟩ := (exec_receives h hne).2 <;> cases hi

/-- Settles O56, by what each effect puts out. -/
theorem dataIsDeliveredOnlyFromACheckedResponse : Obligations.DataIsDeliveredOnlyFromACheckedResponse := by
  intro i s t h hne
  cases (exec_effect h).exchanges with
  | silent os ho _ hd => exact absurd (by simp [ho, hd]) hne
  | asks d ho _ => exact absurd (by simp [ho, Output.carriesData]) hne
  | delivers r _ hchecked => exact hchecked

/-- Settles O57: what could write a register asks for another port state, or for a phase that waits. -/
theorem closedIsFinal : Obligations.ClosedIsFinal := by
  intro i s t hclosed hidle _ h
  cases exec_effect h with
  | busy | answered | codec | ignored => rfl
  | closed => rw [← hclosed]; rfl
  | timeoutSet _ _ ho | noForwardSet _ _ ho | modeSet _ _ _ ho | added _ _ _ _ _ ho | removed _ _ _ ho
  | mapped _ _ _ _ _ ho | unmapped _ _ _ ho | nodeAnswered _ _ _ ho | boardAnswered _ _ _ ho | busReset _ ho =>
    exact absurd hclosed ho
  | inited _ ho | held _ _ _ _ _ ho | unicast _ _ _ _ _ ho | broadcast _ _ _ _ _ ho | bcReadRequested _ _ ho
  | bcReadAwaited _ ho => cases hclosed.symm.trans ho
  | sendFailed _ hp | writeSent _ hp | readSent _ hp | timedOut _ hp | receiveFailed _ hp | rejected _ _ _ hp
  | resynced _ _ _ hp | wrongSequence _ _ _ hp | delivered _ _ _ _ _ _ _ _ _ hp | deliveredAll _ _ _ _ hp
  | askedAgain _ _ hp | nodeResumed _ _ _ hp | boardResumed _ _ _ hp | unicastResumed _ _ _ hp =>
    cases hidle.symm.trans hp

/-! ### A response that comes too late (R144, R163) -/

/-- The command in flight that a quadlet read from board `b` at node `n` becomes at `s`. -/
def State.quadletRead (s : State) (b : BoardId) (n : NodeId) (a : Addr) : Inflight :=
  Inflight.sent (.rq b a) (nodeNum n) s.tl

/-- The read waits for its response, `os` put out since it came at `s`. -/
def State.awaitingQuadlet (s : State) (b : BoardId) (n : NodeId) (a : Addr) (os : List Output) : State :=
  { s with tl := s.tl + 1, inflight := some (s.quadletRead b n a), phase := .waitRecv, out := s.out ++ os }

/-- R118, R128: a quadlet read from a mapped board, the map fresh, comes to wait for its response. -/
theorem quadletRead_awaits {s : State} {b : BoardId} {n : NodeId} (hidle : s.phase = .idle)
    (ho : s.portState = .operational) (hfresh : s.staleMap = false) (hpres : (s.slot b).present = true)
    (hn : (s.slot b).node = some n) (a : Addr) :
    ∃ t os, exec (.readQuadlet (BitVec.ofNat 8 b.val) a) s = .next t ∧
      exec (.sendDone .ok) t = .next (s.awaitingQuadlet b n a os) ∧ os.countP Output.carriesData = 0 := by
  refine ⟨_, [.send (ethWrap s.noForward s.busGen (encQread (nodeNum n) a s.tl)), .receive s.rxTimeout],
    exec_unicast_mapped rfl (toNat_ofBoard b) rfl hidle hpres (by simp) ho hfresh hn, ?_, rfl⟩
  rw [exec_sendDone_read rfl rfl (.inl rfl), State.awaitingQuadlet, List.append_cons s.out]
  rfl

/-- R129, R130: a quadlet read that fails leaves its label spent and its entry in the log. -/
theorem State.fail_awaitingQuadlet (s : State) (b : BoardId) (n : NodeId) (a : Addr) (os : List Output)
    (reason : Reason) (r : Result) :
    (s.awaitingQuadlet b n a os).fail (s.quadletRead b n a) reason r = { s with
      tl := s.tl + 1
      inflight := none
      phase := .idle
      diagLog := s.diagLog ++ [{ reason := reason, op := .rq, board := some b, tl := some s.tl }]
      out := s.out ++ os ++ [.diag { reason := reason, op := .rq, board := some b, tl := some s.tl }] ++ [.result r] } :=
  rfl

/-- Settles O60: the next read has the next label, so the late response is rejected for its own. -/
theorem lateResponseIsRejected : Obligations.LateResponseIsRejected := by
  intro s b n a a' dst rc v tr hidle ho hfresh hpres hn htr
  have hlate : validateResponse (encQresp dst (nodeNum n) s.tl v rc) (nodeNum n) 0x6#4 (s.tl + 1) 4 =
      .labelMismatch := by
    rw [validateResponse_encQresp_verdict, if_neg (by simp), if_pos (by bv_omega)]
  obtain ⟨s1, sent, hread, hsend, hsent⟩ := quadletRead_awaits hidle ho hfresh hpres hn a
  let timedOut := (s.awaitingQuadlet b n a sent).fail (s.quadletRead b n a) .timeout .timeoutError
  have htimeout : exec (.recvDone .timeout) (s.awaitingQuadlet b n a sent) = .next timedOut :=
    exec_recvDone_timeout rfl rfl
  obtain ⟨s4, sent', hread', hsend', hsent'⟩ := quadletRead_awaits (s := timedOut) rfl ho hfresh hpres hn a'
  have hfinds : (timedOut.quadletRead b n a').Finds (encQresp dst (nodeNum n) s.tl v rc) .labelMismatch :=
    .inr ⟨_, _, _, _, rfl, rfl, rfl, rfl, hlate⟩
  have hrejected := exec_recvDone_rejected (s := timedOut.awaitingQuadlet b n a' sent') rfl rfl rfl htr hfinds rfl
  refine ⟨s1, _, timedOut, s4, _, _, hread, hsend, htimeout, hread', hsend', hrejected, ?_, ?_⟩
  · have htl : s.tl + 2 = s.tl + 1 + 1 := by bv_omega
    simp only [timedOut, State.fail_awaitingQuadlet, htl, hidle]
  · refine ⟨sent ++ [.diag ((s.quadletRead b n a).entry .timeout), .result .timeoutError] ++ sent' ++
      [.diag ((timedOut.quadletRead b n a').entry .labelMismatch)], ?_, ?_⟩
    · simp [timedOut, State.awaitingQuadlet]
    · simp [hsent, hsent', Output.carriesData]

end Sys2Proof.Machine

/-! ## A command presented while another is in flight (O45) -/

namespace Sys2Proof.Machine

/-- R37, R147: whatever a host command does is behind the test of the phase, which comes before every other. -/
theorem exec_command_eq_whenIdle {i : Instr} (hi : i.port = .cmd) (s : State) : ∃ k, exec i s = whenIdle s k := by
  cases i with
  | qwrite | bwrite | qread | bread | qresp | bresp | sendDone | recvDone | revalDone | busReset => cases hi
  | init | shutdown | setTimeout | setNoForward | setProtocol | getStatus | getTiming
  | addBoard | removeBoard | mapNode | unmapNode | boardExists | fwVersion | nodeForBoard | boardForNode | bcCapableAll
  | readQuadlet | writeQuadlet | readBlock | writeBlock
  | writeBcQuadlet | writeBcBlock | writeBcReadRequest | waitBcRead => exact ⟨_, rfl⟩

/-- Settles O45, for every host command at once: the test of the phase answers. -/
theorem commandsInFlightMakeBusy : Obligations.CommandsInFlightMakeBusy := by
  intro i s hi hbusy
  obtain ⟨k, hk⟩ := exec_command_eq_whenIdle hi s
  exact hk.trans (whenIdle_busy hbusy k)

end Sys2Proof.Machine
